-- ==== Sys2Proof/Word.lean ====
section
/-! DEFINITION. The word types of the block: bytes, 16-bit channel values, 32-bit words, and the 2-bit switch
position. 00_scope.md R7. -/

namespace Sys2Proof

/-- 8 bits: a byte of the frame buffer or of a command (R7). -/
abbrev Byte := BitVec 8

/-- 16 bits unsigned: a channel value (R20). -/
abbrev Half := BitVec 16

/-- 32 bits: a stick value (signed, R22), the switch bank (R25), a float pattern (R71), a timeout (R153). -/
abbrev Word := BitVec 32

/-- A two-bit switch position (R25). -/
abbrev SwitchValue := BitVec 2

end Sys2Proof
end

