-- ==== Sys2Proof/Syntax.lean ====
section
/-! DEFINITION. The operations of the block (30_encoding.md R75), one constructor per row of the table, and the
contexts that issue them. -/

namespace Sys2Proof

/-- Who issues an operation (R9, R201): the producer, the consumer or the environment. -/
inductive Ctx where
  | producer
  | consumer
  | environment
  deriving DecidableEq, Repr

/-- The four axes of `GET_STICK`, in the numbering of R22: 0 roll, 1 pitch, 2 throttle, 3 yaw. -/
inductive Axis where
  | roll
  | pitch
  | throttle
  | yaw
  deriving DecidableEq, Repr

/-- The sixteen operations of R75. A byte operand that the spec bounds (axis, switch index) is held by its range;
the decoder rejects the rest by name (R77). -/
inductive Instr where
  | push (b : Byte)
  | loadf (d : List Byte)
  | sigSlot
  | sigQ
  | waitSlot (t : Word)
  | waitQ (t : Word)
  | decode
  | getCh (i : Byte)
  | getStick (a : Axis)
  | getSw (i : Fin 16)
  | setSw (i : Fin 16) (v : Byte)
  | isNew
  | clrNew
  | getLink
  | bits2fix (x : Word)
  | reset
  deriving DecidableEq, Repr

end Sys2Proof
end

