-- ==== Sys2Proof/WellFormed.lean ====
section
/-! DEFINITION. Which terms of `Instr` are commands: the length byte of LOADF must hold the number of its data bytes
(30_encoding.md R74, R75). Every other operand is bounded by its type. -/

namespace Sys2Proof

/-- A command can be written as bytes (R74): LOADF carries at most 255 data bytes. -/
def Instr.wf : Instr → Bool
  | .push _ => true
  | .loadf d => d.length ≤ 255
  | .sigSlot => true
  | .sigQ => true
  | .waitSlot _ => true
  | .waitQ _ => true
  | .decode => true
  | .getCh _ => true
  | .getStick _ => true
  | .getSw _ => true
  | .setSw _ _ => true
  | .isNew => true
  | .clrNew => true
  | .getLink => true
  | .bits2fix _ => true
  | .reset => true

end Sys2Proof
end

