-- ==== Sys2Proof/Decode.lean ====
section
/-! DEFINITION. The command encoding (30_encoding.md R74, R75): the decoder, total on any bytes and rejecting by
name, and the encoder. -/

namespace Sys2Proof

/-- Why bytes are no command (R77). -/
inductive DecodeError where
  /-- The first byte is no opcode of R75. -/
  | reservedOpcode (op : Byte)
  /-- The bytes end before the command does, or there are none. -/
  | truncated
  /-- GET_STICK with an axis above 3. -/
  | illegalAxis (a : Byte)
  /-- GET_SW or SET_SW with an index above 15. -/
  | illegalSwitch (i : Byte)
  deriving DecidableEq, Repr

/-- `le32` (R7): four bytes to a word, the first the least significant. -/
def le32 (b0 b1 b2 b3 : Byte) : Word :=
  b0.setWidth 32 ||| b1.setWidth 32 <<< 8 ||| b2.setWidth 32 <<< 16 ||| b3.setWidth 32 <<< 24

/-- `le16` (R7): two bytes to a 16-bit word, the first the less significant. -/
def le16 (b0 b1 : Byte) : Half :=
  b0.setWidth 16 ||| b1.setWidth 16 <<< 8

/-- The axis a byte names (R22). -/
def axisOf (a : Byte) : Except DecodeError Axis :=
  match a.toNat with
  | 0 => .ok .roll
  | 1 => .ok .pitch
  | 2 => .ok .throttle
  | 3 => .ok .yaw
  | _ => .error (.illegalAxis a)

/-- The byte that names an axis (R22). -/
def axisByte : Axis → Byte
  | .roll => 0
  | .pitch => 1
  | .throttle => 2
  | .yaw => 3

/-- The switch a byte names (R77: 0 to 15). -/
def switchOf (i : Byte) : Except DecodeError (Fin 16) :=
  if h : i.toNat < 16 then .ok ⟨i.toNat, h⟩ else .error (.illegalSwitch i)

/-- What the decoder answers: the command and the bytes after it, or why there is none. -/
abbrev Decoded := Except DecodeError (Instr × List Byte)

/-- A command with one operand byte. -/
def oneByte (r : List Byte) (k : Byte → Except DecodeError Instr) : Decoded :=
  match r with
  | b :: rest => (k b).map (·, rest)
  | _ => .error .truncated

/-- A command with two operand bytes. -/
def twoBytes (r : List Byte) (k : Byte → Byte → Except DecodeError Instr) : Decoded :=
  match r with
  | b :: c :: rest => (k b c).map (·, rest)
  | _ => .error .truncated

/-- A command with a four-byte operand, little-endian (R74). -/
def fourBytes (r : List Byte) (k : Word → Instr) : Decoded :=
  match r with
  | b0 :: b1 :: b2 :: b3 :: rest => .ok (k (le32 b0 b1 b2 b3), rest)
  | _ => .error .truncated

/-- LOADF's operands (R74): `n`, then `n` data bytes. -/
def counted (r : List Byte) (k : List Byte → Instr) : Decoded :=
  match r with
  | n :: rest =>
    if n.toNat ≤ rest.length then .ok (k (rest.take n.toNat), rest.drop n.toNat) else .error .truncated
  | _ => .error .truncated

/-- The decoder of R75: the opcode alone fixes the operands. -/
def decode (bytes : List Byte) : Decoded :=
  match bytes with
  | [] => .error .truncated
  | op :: r =>
    match op.toNat with
    | 0x01 => oneByte r (fun b => .ok (.push b))
    | 0x02 => counted r .loadf
    | 0x03 => .ok (.sigSlot, r)
    | 0x04 => .ok (.sigQ, r)
    | 0x10 => fourBytes r .waitSlot
    | 0x11 => fourBytes r .waitQ
    | 0x12 => .ok (.decode, r)
    | 0x13 => oneByte r (fun i => .ok (.getCh i))
    | 0x14 => oneByte r (fun a => (axisOf a).map .getStick)
    | 0x15 => oneByte r (fun i => (switchOf i).map .getSw)
    | 0x16 => twoBytes r (fun i v => (switchOf i).map (.setSw · v))
    | 0x17 => .ok (.isNew, r)
    | 0x18 => .ok (.clrNew, r)
    | 0x19 => .ok (.getLink, r)
    | 0x20 => fourBytes r .bits2fix
    | 0x7F => .ok (.reset, r)
    | _ => .error (.reservedOpcode op)

/-- Byte `k` of a word, 0 the least significant. -/
def byteAt (x : Word) (k : Nat) : Byte :=
  x.extractLsb' (8 * k) 8

/-- The four bytes of a word, little-endian (R74). -/
def wordBytes (x : Word) : List Byte :=
  [byteAt x 0, byteAt x 1, byteAt x 2, byteAt x 3]

/-- The encoder of R75. -/
def encode : Instr → List Byte
  | .push b => [0x01, b]
  | .loadf d => 0x02 :: BitVec.ofNat 8 d.length :: d
  | .sigSlot => [0x03]
  | .sigQ => [0x04]
  | .waitSlot t => 0x10 :: wordBytes t
  | .waitQ t => 0x11 :: wordBytes t
  | .decode => [0x12]
  | .getCh i => [0x13, i]
  | .getStick a => [0x14, axisByte a]
  | .getSw i => [0x15, BitVec.ofNat 8 i.val]
  | .setSw i v => [0x16, BitVec.ofNat 8 i.val, v]
  | .isNew => [0x17]
  | .clrNew => [0x18]
  | .getLink => [0x19]
  | .bits2fix x => 0x20 :: wordBytes x
  | .reset => [0x7F]

/-- The length in bytes of a command (the column of R75). -/
def commandLength : Instr → Nat
  | .push _ => 2
  | .loadf d => 2 + d.length
  | .sigSlot => 1
  | .sigQ => 1
  | .waitSlot _ => 5
  | .waitQ _ => 5
  | .decode => 1
  | .getCh _ => 2
  | .getStick _ => 2
  | .getSw _ => 2
  | .setSw _ _ => 3
  | .isNew => 1
  | .clrNew => 1
  | .getLink => 1
  | .bits2fix _ => 5
  | .reset => 1

/-- The first `k` bytes of a number, least significant first. -/
def bytesOfNat : Nat → Nat → List Byte
  | 0, _ => []
  | k + 1, w => BitVec.ofNat 8 w :: bytesOfNat k (w / 256)

/-- The length in bytes of the command a table word begins: 5 covers every command but LOADF, whose second byte says
how many data bytes follow (R74). -/
def tableLength (w : Nat) : Nat :=
  if w % 256 = 2 then 2 + w / 256 % 256 else 5

/-- A table word of `nbits` bits laid out as command bytes: byte 0 first, and zeros above `nbits` as far as the command
reaches. -/
def tableBytes (nbits w : Nat) : List Byte :=
  bytesOfNat (tableLength (w % 2 ^ nbits)) (w % 2 ^ nbits)

/-- The command this decoder reads from a word of the opcode table. -/
def decodeTableWord (nbits w : Nat) : Option Instr :=
  match decode (tableBytes nbits w) with
  | .ok (i, _) => some i
  | .error _ => none

/-- The bytes of the one command a table word holds, without the zeros after it; all of them if it holds none. -/
def tableCommand (nbits w : Nat) : List Byte :=
  match decode (tableBytes nbits w) with
  | .ok (i, _) => encode i
  | .error _ => tableBytes nbits w

end Sys2Proof
end

