-- ==== Sys2Proof/Config.lean ====
section
/-! DEFINITION. What fixes an instance of the block (00_scope.md R6), and the free values: opaque constants that
nothing can evaluate. The parameters are plain data, so that a state can carry them (log 1). -/

namespace Sys2Proof

/-- `PROTO`: the wire protocol of an instance (R6). -/
inductive Proto where
  | ch11
  | ckm
  | joy
  deriving DecidableEq, Repr

/-- `CKM_CSUM_MODE`: what a CKM checksum field must equal (R65). -/
inductive CsumMode where
  | sum
  | notSum
  | negSum
  deriving DecidableEq, Repr

/-- One entry of `CKM_MODELS` (R6, R63): first byte, frame length, channel offset, channel count. -/
structure CkmModel where
  sync : Byte
  len : Nat
  off : Nat
  nch : Nat
  deriving DecidableEq, Repr

/-- One flag's part of `JOY_FLAG_MAP` (R69): the raw bytes listed map as listed, every other byte to `other`.
Every function from bytes to switch positions has this form (log 24). -/
structure FlagMap where
  listed : List (Byte × SwitchValue)
  other : SwitchValue
  deriving DecidableEq, Repr

/-- The parameters of R6 that are plain data. `CH11_LEN` is 25 on every instance; `CHAN_TO_STICK` is
`Config.chanToStick`. -/
structure Config where
  /-- `PROTO` -/
  proto : Proto
  /-- `FRAME_CAP` -/
  frameCap : Nat
  /-- `CH11_SYNC` -/
  ch11Sync : Byte
  /-- `CHANNEL_LOW` -/
  channelLow : Half
  /-- `CHANNEL_HIGH` -/
  channelHigh : Half
  /-- `CKM_MODELS` -/
  ckmModels : List CkmModel
  /-- `CKM_CSUM_MODE` -/
  csumMode : CsumMode
  /-- `JOY_ID` -/
  joyId : Vector Byte 6
  /-- `JOY_LEN` -/
  joyLen : Nat
  /-- `JOY_SW_IDX` -/
  joySwIdx : Vector (Fin 16) 5
  /-- `JOY_FLAG_MAP`, one entry per flag -/
  joyFlagMap : Vector FlagMap 5
  /-- `FIX_FRAC_BITS`, `F` -/
  fixFracBits : Nat
  /-- `Q_DEPTH` -/
  qDepth : Nat
  deriving DecidableEq, Repr

/-- `CH11_LEN` (R6, R60). -/
def ch11Len : Nat := 25

/-- What R6 asks of an entry of `CKM_MODELS`; that a length fits the 8 bits of `frame_len` is R12. -/
def CkmModel.wf (m : CkmModel) : Bool :=
  m.off + 2 * m.nch + 2 ≤ m.len && m.nch ≤ 18 && m.len ≤ 255

/-- What R6 asks of the parameters of an instance. -/
def Config.wf (c : Config) : Bool :=
  1 ≤ c.frameCap && c.frameCap ≤ 255
    && c.channelLow != c.channelHigh
    && !c.ckmModels.isEmpty && c.ckmModels.all CkmModel.wf
    && decide ((c.ckmModels.map CkmModel.sync).Nodup)
    && (c.joyLen == 25 || c.joyLen == 26)
    && decide (c.joySwIdx.toList.Nodup)
    && 1 ≤ c.qDepth

/-- The parameters a state has at `State.reset`: the values R6 gives for this hardware, and for the OPEN ones those
the spec's vectors use (95_test_vectors.md). DESIGN CHOICE (log 2), `PROTO = JOY` among them: no source fixes
an OPEN value. -/
def Config.given : Config where
  proto := .joy
  frameCap := 32
  ch11Sync := 0x0F
  channelLow := 1000
  channelHigh := 2000
  ckmModels := [⟨0x20, 32, 2, 14⟩]
  csumMode := .sum
  joyId := #v[0x11, 0x22, 0x33, 0xA1, 0xB2, 0xC3]
  joyLen := 26
  joySwIdx := #v[0, 1, 2, 3, 4]
  joyFlagMap := Vector.replicate 5 ⟨[(0, 0)], 1⟩
  fixFracBits := 11
  qDepth := 2

/-- `CHAN_TO_STICK` (R6): OPEN with no default, so an opaque function (log 7). -/
opaque Config.chanToStick : Half → Word

/-- `UNSPECIFIED(i32)` and `UNSPECIFIED(u32)` (R8): the free value at an index of the draw counter (log 6). -/
opaque Config.freeWord : Nat → Word

/-- `UNSPECIFIED(u16)` (R8, R21): as `freeWord`. -/
opaque Config.freeHalf : Nat → Half

/-- `UNSPECIFIED(u8)` (R8, R30): as `freeWord`. -/
opaque Config.freeByte : Nat → Byte

/-- An unspecified count (R30: `frame_len`, `model`): as `freeWord`. The reader brings it into the element's range. -/
opaque Config.freeNat : Nat → Nat

end Sys2Proof
end

