-- ==== Sys2Proof/Machine/State.lean ====
section
/-! DEFINITION. The state of the block as plain data (10_state.md), what a step can stop with, and the state after
reset (R30). -/

namespace Sys2Proof.Machine

/-- The frame buffer's bytes by frame offset (R10, R40): offsets strictly rising, none equal to what an unlisted
offset reads as. -/
abbrev Memory := List Host.Cell

/-- `fsm` (R14). -/
inductive Fsm where
  | empty
  | filling
  | full
  deriving DecidableEq, Repr

/-- The raw stick values (R22), each signed. -/
structure Sticks where
  roll : Word
  pitch : Word
  throttle : Word
  yaw : Word
  deriving DecidableEq, Repr

/-- The two handoff primitives (R150, R151). -/
inductive Primitive where
  | slot
  | queue
  deriving DecidableEq, Repr

/-- The consumer's wait in progress (R156): what it waits on, and whether the environment has declared its timeout
expired. -/
structure Wait where
  prim : Primitive
  expired : Bool
  deriving DecidableEq, Repr

/-- The result code of DECODE (R76). -/
inductive Code where
  | none
  | valid
  | invalid
  | foreign
  deriving DecidableEq, Repr

/-- What an operation returns to its issuer (the result column of R75). -/
inductive Result where
  | completed (b : Bool)
  | signaled (b : Bool)
  | code (c : Code)
  | channel (v : Half)
  | stick (v : Word)
  | switch (v : SwitchValue)
  | isNew (b : Bool)
  | link (v : BitVec 2)
  | fixed (v : Word)
  deriving DecidableEq, Repr

/-- A result and the context it is handed to. -/
structure Reply where
  ctx : Ctx
  result : Result
  deriving DecidableEq, Repr

/-- What the outside presents to the ports, in the order in which it takes effect (R9, R49; log 8, 10). -/
inductive Event where
  /-- Commands issued by one context, as bytes (R74). -/
  | command (ctx : Ctx) (bytes : List Byte)
  /-- The environment declares the timeout of the blocked wait expired (R156). -/
  | expire
  /-- The moment at which the blocked wait completes, if it is enabled to (R156). -/
  | resume
  deriving DecidableEq, Repr

/-- The state of the block (10_state.md; INVENTORY.md, State). -/
structure State where
  /-- The instance parameters (R6). No operation writes them. -/
  cfg : Config
  /-- `buf` (R10) -/
  mem : Memory
  /-- `widx` (R11) -/
  widx : Nat
  /-- `frame_len` (R12) -/
  frameLen : Nat
  /-- `model` (R13), on a CKM instance only -/
  model : Nat
  /-- `fsm` (R14) -/
  fsm : Fsm
  /-- `frame_complete` (R16) -/
  frameComplete : Bool
  /-- `new_packet` (R17) -/
  newPacket : Bool
  /-- `failsafe` (R18) -/
  failsafe : Bool
  /-- `signal_lost` (R18) -/
  signalLost : Bool
  /-- `ch[0 .. 17]` (R20) -/
  ch : Vector Half 18
  /-- `ch_count` (R21) -/
  chCount : Nat
  /-- `stick` (R22) -/
  stick : Sticks
  /-- `slot_pending` (R23, R150) -/
  slotPending : Bool
  /-- `q_count` (R24, R151) -/
  qCount : Nat
  /-- `switch_bank` (R25) -/
  switchBank : Word
  /-- The consumer's blocked wait, if there is one (R156, R204) -/
  wait : Option Wait
  /-- The context that issued the operation being executed (R74, R201) -/
  issuer : Ctx
  /-- The events presented and not yet taken, the next one first (R9, R74) -/
  stream : List Event
  /-- The results returned so far, oldest first (R9) -/
  results : List Reply
  /-- The next index of a free value (R8; the model's own, log 6) -/
  draws : Nat
  deriving DecidableEq, Repr

/-- Why the machine stops although the operation has a meaning. -/
inductive Fault where
  /-- DECODE finds a `model` that is no index of CKM_MODELS, outside the range R13 gives it. Raised by DECODE, in
  states that no run reaches (log 16). Safe. -/
  | noSuchModel
  deriving DecidableEq, Repr

/-- Why a command or an event is given no meaning. -/
inductive Refusal where
  /-- An operation whose meaning is still to be written. Raised by `exec`. Safe. -/
  | notModelled (mnemonic : String)
  /-- The first byte is no opcode (R77, V6). Raised by `step`. Safe. -/
  | reservedOpcode (op : Byte)
  /-- The issued bytes end inside a command (log 21). Raised by `step`. Safe. -/
  | truncatedCommand
  /-- GET_STICK with an axis above 3 (R77, V7). Raised by `step`. Safe. -/
  | illegalAxis (a : Byte)
  /-- GET_SW or SET_SW with an index above 15 (R77, V7). Raised by `step`. Safe. -/
  | illegalSwitch (i : Byte)
  /-- A command from a context R75 does not allow it (R77, V7). Raised by every meaning. Safe. -/
  | wrongContext
  /-- LOADF on an instance whose PROTO is not JOY (R77, V7). Raised by LOADF. Safe. -/
  | wrongProtocol
  /-- A consumer command while the consumer is blocked in a wait: a second consumer, or none (R156, R159, V9).
  Raised by every consumer meaning. Safe. -/
  | consumerBlocked
  /-- RESET while the consumer is blocked in a wait (R217, V8). Raised by RESET. Safe. -/
  | resetInFlight
  /-- An expiry or a completion of a wait when none is in flight (log 10). Raised by `step`. Safe. -/
  | noWaitInFlight
  deriving DecidableEq, Repr

/-- What one step, or one operation, answers. -/
abbrev Answer := Host.Outcome State Fault Refusal

/-- The block right after reset (R30). Elements R30 leaves UNSPECIFIED hold the values log 3 and log 4 name
(DESIGN CHOICE), the parameters those of log 2. -/
def State.reset : State where
  cfg := Config.given
  mem := []
  widx := 0
  frameLen := 1
  model := 0
  fsm := .empty
  frameComplete := false
  newPacket := false
  failsafe := false
  signalLost := false
  ch := Vector.replicate 18 0
  chCount := 0
  stick := ⟨0, 0, 0, 0⟩
  slotPending := false
  qCount := 0
  switchBank := 0
  wait := none
  issuer := .environment
  stream := []
  results := []
  draws := 0

end Sys2Proof.Machine
end

