-- ==== Sys2Proof/Machine/Ops.lean ====
section
/-! DEFINITION. The operations the meanings share: the frame buffer's memory, the named updates of the state, the
free values, how an operation is admitted and how it ends (the error classes of 60_exceptions.md R190 among the
ways to end). -/

namespace Sys2Proof.Machine

/-! ## Memory (R40) -/

/-- What an offset that nothing has written reads as: DESIGN CHOICE (log 4), R30 leaves it UNSPECIFIED. -/
def unwritten : Byte := 0

/-- Read one byte. -/
def Memory.read : Memory → Nat → Byte
  | [], _ => unwritten
  | (c, x) :: m, a => if a = c then x else Memory.read m a

/-- Put a listed byte in front, or nothing if it is what an unlisted offset reads as. -/
def Memory.list (a : Nat) (b : Byte) (m : Memory) : Memory :=
  if b = unwritten then m else (a, b) :: m

/-- Write one byte, keeping the canonical form. -/
def Memory.write : Memory → Nat → Byte → Memory
  | [], a, b => Memory.list a b []
  | (c, x) :: m, a, b =>
    if a < c then Memory.list a b ((c, x) :: m)
    else if a = c then Memory.list a b m
    else (c, x) :: Memory.write m a b

/-- Write bytes at consecutive offsets (R99). -/
def Memory.writeAll : Memory → Nat → List Byte → Memory
  | m, _, [] => m
  | m, a, b :: bs => Memory.writeAll (Memory.write m a b) (a + 1) bs

/-- Every listed offset is above `a`, and they rise. -/
def Memory.risingFrom : Nat → Memory → Bool
  | _, [] => true
  | a, (c, _) :: m => a ≤ c && Memory.risingFrom (c + 1) m

/-- The canonical form: offsets strictly rising, no entry equal to what an unlisted offset reads as. -/
def Memory.wf (m : Memory) : Bool :=
  Memory.risingFrom 0 m && m.all (fun c => c.2 != unwritten)

/-- Every listed offset exists in a buffer of `cap` bytes (R10). -/
def Memory.within (m : Memory) (cap : Nat) : Bool :=
  m.all (fun c => decide (c.1 < cap))

/-- `buf[i]` (R8). -/
def State.buf (s : State) (i : Nat) : Byte :=
  Memory.read s.mem i

/-! ## Named updates -/

/-- `fsm <- f; widx <- w`. -/
def State.frameAt (s : State) (f : Fsm) (w : Nat) : State :=
  { s with fsm := f, widx := w }

/-- `frame_len <- len`, and `model <- m` where there is one (R94). -/
def State.latch (s : State) (len : Nat) (m : Option Nat) : State :=
  { s with frameLen := len, model := m.getD s.model }

/-- `buf[i] <- b`. -/
def State.store (s : State) (i : Nat) (b : Byte) : State :=
  { s with mem := Memory.write s.mem i b }

/-- `buf[i ..] <- d`. -/
def State.storeAll (s : State) (i : Nat) (d : List Byte) : State :=
  { s with mem := Memory.writeAll s.mem i d }

/-- `slot_pending <- b` (R152, R153). -/
def State.setSlot (s : State) (b : Bool) : State :=
  { s with slotPending := b }

/-- `q_count <- n` (R154, R155). -/
def State.setQueue (s : State) (n : Nat) : State :=
  { s with qCount := n }

/-- `frame_complete <- b`. -/
def State.setComplete (s : State) (b : Bool) : State :=
  { s with frameComplete := b }

/-- `new_packet <- b`. -/
def State.setNew (s : State) (b : Bool) : State :=
  { s with newPacket := b }

/-- The channel array and its count (R20, R21). -/
def State.setChannels (s : State) (ch : Vector Half 18) (n : Nat) : State :=
  { s with ch := ch, chCount := n }

/-- `signal_lost` and `failsafe` (R18). -/
def State.setLink (s : State) (lost fail : Bool) : State :=
  { s with signalLost := lost, failsafe := fail }

/-- The four stick values (R22). -/
def State.setSticks (s : State) (v : Sticks) : State :=
  { s with stick := v }

/-- `switch_bank <- w` (R25). -/
def State.setSwitches (s : State) (w : Word) : State :=
  { s with switchBank := w }

/-- The consumer blocks in a wait, or is released. -/
def State.setWait (s : State) (w : Option Wait) : State :=
  { s with wait := w }

/-- The draw counter moves past `n` free values (R8, log 6). -/
def State.drawn (s : State) (n : Nat) : State :=
  { s with draws := s.draws + n }

/-- The issuer and the rest of the stream, as a command or an event is taken. -/
def State.taken (s : State) (c : Ctx) (rest : List Event) : State :=
  { s with issuer := c, stream := rest }

/-- A result handed to a context. -/
def State.reply (s : State) (c : Ctx) (r : Result) : State :=
  { s with results := s.results ++ [⟨c, r⟩] }

/-- The change of state of a completed frame (R97, R99): FULL, `frame_complete`, and the post to the primary
handoff, in one step. -/
def State.complete (s : State) (n : Nat) : State :=
  ((s.frameAt .full n).setComplete true).setSlot true

/-! ## Who may issue what (the ctx column of R75) -/

/-- Producer operations. -/
def byProducer (c : Ctx) : Bool := c == .producer

/-- Consumer operations. -/
def byConsumer (c : Ctx) : Bool := c == .consumer

/-- Environment operations. -/
def byEnvironment (c : Ctx) : Bool := c == .environment

/-- "any = either context" (R75): the producer or the consumer. -/
def byEither (c : Ctx) : Bool := c == .producer || c == .consumer

/-- The context that issues an operation; of the two that may issue BITS2FIX, the consumer. -/
def usualIssuer : Instr → Ctx
  | .push _ => .producer
  | .loadf _ => .producer
  | .sigSlot => .producer
  | .sigQ => .producer
  | .waitSlot _ => .consumer
  | .waitQ _ => .consumer
  | .decode => .consumer
  | .getCh _ => .consumer
  | .getStick _ => .consumer
  | .getSw _ => .consumer
  | .setSw _ _ => .consumer
  | .isNew => .consumer
  | .clrNew => .consumer
  | .getLink => .consumer
  | .bits2fix _ => .consumer
  | .reset => .environment

/-- An operation is taken only from a context R75 allows (R77), and from the consumer only while it is not blocked
in a wait (R156, R159). -/
def admitted (allowed : Ctx → Bool) (s : State) (k : Answer) : Answer :=
  if allowed s.issuer then
    if s.issuer = .consumer ∧ s.wait.isSome then .refused .consumerBlocked else k
  else .refused .wrongContext

/-! ## How an operation ends -/

/-- The four error classes (R190). -/
inductive ErrorClass where
  | desync
  | checksumFailure
  | identityMismatch
  | overflow
  deriving DecidableEq, Repr

/-- How an operation ends: the state it leaves, what it returns, and the class it reports if it reports one. -/
structure Ended where
  state : State
  result : Option Result
  error : Option ErrorClass
  deriving DecidableEq, Repr

/-- An operation that returns a result and reports no class. -/
def returning (s : State) (r : Result) : Ended := ⟨s, some r, none⟩

/-- An operation with no result. -/
def silent (s : State) : Ended := ⟨s, none, none⟩

/-- `report <class>; return r` (R8). -/
def reporting (s : State) (c : ErrorClass) (r : Result) : Ended := ⟨s, some r, some c⟩

/-- The end of an operation, and the block's whole counterpart of taking an exception (R193): the result goes to the
issuer; a reported class saves nothing, changes no mode and goes nowhere, so it is dropped (R190, log 14). -/
def finish (e : Ended) : State :=
  match e.result with
  | some r => e.state.reply e.state.issuer r
  | none => e.state

end Sys2Proof.Machine
end

