-- ==== Sys2Proof/Machine/Operands.lean ====
section
/-! DEFINITION. Operand assembly from the frame buffer: the fields of the three wire layouts (30_encoding.md R60 to
R69) and the checksums over them. -/

namespace Sys2Proof.Machine

/-- The byte a depacketizer gets from a frame offset: `buf[i]`, or a free value at an offset the buffer does not have
(log 16: no rule says what is there). One DECODE gets one value from one offset. -/
def frameByte (s : State) (i : Nat) : Byte :=
  if i < s.cfg.frameCap then s.buf i else Config.freeByte (s.draws + (i - s.cfg.frameCap))

/-! ## CH11 (R60, R61) -/

/-- Data byte `P[i]` of a CH11 frame: offset `1 + i`; `P[22]` and above are taken as 0 (R61). -/
def ch11Data (s : State) (i : Nat) : Byte :=
  if i < 22 then frameByte s (1 + i) else 0

/-- Field `k` (R61): three data bytes assembled, shifted and cut to 11 bits. -/
def ch11Field (s : State) (k : Nat) : BitVec 11 :=
  let q := 11 * k / 8
  let w : BitVec 24 := (ch11Data s q).setWidth 24 ||| (ch11Data s (q + 1)).setWidth 24 <<< 8
    ||| (ch11Data s (q + 2)).setWidth 24 <<< 16
  (w >>> (11 * k % 8)).setWidth 11

/-- The flags byte (R60): offset 23. -/
def ch11Flags (s : State) : Byte := frameByte s 23

/-- How many leading bytes of a frame `decode_CH11` needs: it reads offsets 1 to 23 (R110). -/
def ch11Extent : Nat := 24

/-! ## CKM (R63 to R65) -/

/-- `le16` of two neighbouring bytes of the buffer. -/
def halfAt (s : State) (o : Nat) : Half := le16 (frameByte s o) (frameByte s (o + 1))

/-- Channel word `k` of a model's frame (R64). -/
def ckmWord (s : State) (m : CkmModel) (k : Nat) : Half := halfAt s (m.off + 2 * k)

/-- The received checksum field (R65). -/
def ckmField (s : State) (m : CkmModel) : Half := halfAt s (m.len - 2)

/-- The sum of the first `n` bytes of the buffer modulo `2^16`. -/
def halfSum (s : State) : Nat → Half
  | 0 => 0
  | n + 1 => halfSum s n + (frameByte s n).setWidth 16

/-- The computed sum (R65): every byte but the checksum field. -/
def ckmSum (s : State) (m : CkmModel) : Half := halfSum s (m.len - 2)

/-- `expect(sum)` (R65). -/
def expected (mode : CsumMode) (sum : Half) : Half :=
  match mode with
  | .sum => sum
  | .notSum => 0xFFFF - sum
  | .negSum => 0 - sum

/-- How many leading bytes of a frame `decode_CKM` needs: the frame, and its channel words. -/
def ckmExtent (m : CkmModel) : Nat := max m.len (m.off + 2 * m.nch)

/-! ## JOY (R66 to R69) -/

/-- `le32` of four neighbouring bytes of the buffer (R43, R67). -/
def wordAt (s : State) (o : Nat) : Word :=
  le32 (frameByte s o) (frameByte s (o + 1)) (frameByte s (o + 2)) (frameByte s (o + 3))

/-- The sum of the first `n` bytes of the buffer modulo 256. -/
def byteSum (s : State) : Nat → Byte
  | 0 => 0
  | n + 1 => byteSum s n + frameByte s n

/-- The computed checksum (R68): offsets 0 to 23. -/
def joySum (s : State) : Byte := byteSum s 24

/-- The received checksum (R68): offset 24. -/
def joyField (s : State) : Byte := frameByte s 24

/-- The identity test (R68, R132). -/
def joyIdentity (s : State) : Bool :=
  frameByte s 0 == s.cfg.joyId[3] && frameByte s 1 == s.cfg.joyId[4] && frameByte s 2 == s.cfg.joyId[5]

/-- The raw byte of flag `k` (R69). -/
def joyFlag (s : State) (k : Nat) : Byte := frameByte s (19 + k)

/-- How many leading bytes of a frame `decode_JOY` needs: offsets 0 to 24 (R130). -/
def joyExtent : Nat := 25

end Sys2Proof.Machine
end

