-- ==== Sys2Proof/Machine/Flags.lean ====
section
/-! DEFINITION. Flag bytes and two-bit switches: the CH11 flags byte (30_encoding.md R62), the JOY flag map (R69) and
the packing of the switch bank (R70). -/

namespace Sys2Proof.Machine

/-- The channel value of a boolean channel (R112). -/
def sentinel (c : Config) (b : Bool) : Half :=
  if b then c.channelHigh else c.channelLow

/-- `signal_lost` is bit 2 of the CH11 flags byte (R62; general knowledge there, log 22). -/
def lostBit (fl : Byte) : Bool := fl.getLsbD 2

/-- `failsafe` is bit 3 of the CH11 flags byte (R62; general knowledge there, log 22). -/
def failBit (fl : Byte) : Bool := fl.getLsbD 3

/-- GET_LINK's two bits (R177). -/
def linkBits (lost fail : Bool) : BitVec 2 :=
  (BitVec.ofBool fail).setWidth 2 <<< 1 ||| (BitVec.ofBool lost).setWidth 2

/-- The listed switch position of a raw byte, or the one every other byte has. -/
def listedValue (other : SwitchValue) : List (Byte × SwitchValue) → Byte → SwitchValue
  | [], _ => other
  | (b, v) :: l, raw => if raw = b then v else listedValue other l raw

/-- `JOY_FLAG_MAP(k, raw)` (R69). -/
def joyFlagValue (c : Config) (k : Fin 5) (raw : Byte) : SwitchValue :=
  listedValue c.joyFlagMap[k].other c.joyFlagMap[k].listed raw

/-- Switch `i` of a bank (R70). -/
def getSwitch (bank : Word) (i : Fin 16) : SwitchValue :=
  (bank >>> (2 * i.val) &&& 3).setWidth 2

/-- A bank with switch `i` replaced (R70). -/
def setSwitch (bank : Word) (i : Fin 16) (v : SwitchValue) : Word :=
  bank &&& ~~~((3 : Word) <<< (2 * i.val)) ||| v.setWidth 32 <<< (2 * i.val)

/-- Flag `k` of the JOY frame in the buffer, written into its switch (R134). -/
def writeFlag (s : State) (bank : Word) (k : Fin 5) : Word :=
  setSwitch bank s.cfg.joySwIdx[k] (joyFlagValue s.cfg k (joyFlag s k.val))

/-- The bank after the five JOY flags, in their order (R134). -/
def joySwitches (s : State) : Word :=
  writeFlag s (writeFlag s (writeFlag s (writeFlag s (writeFlag s s.switchBank 0) 1) 2) 3) 4

end Sys2Proof.Machine
end

