-- ==== Sys2Proof/Machine/Accessors.lean ====
section
/-! DEFINITION. The consumer's accessors (46_accessors.md R171 to R177). -/

namespace Sys2Proof.Machine

/-- The channel value GET_CH returns (R171). An index at or beyond `ch_count`, 18 to 255 among them, gives
CHANNEL_LOW. -/
def channelAt (s : State) (i : Nat) : Half :=
  if i < s.chCount then s.ch[i]?.getD s.cfg.channelLow else s.cfg.channelLow

/-- `GET_CH i` (R171). -/
def execGetCh (i : Byte) (s : State) : Answer :=
  admitted byConsumer s (.next (finish (returning s (.channel (channelAt s i.toNat)))))

/-- The stick value of an axis (R172). -/
def stickAt (v : Sticks) : Axis → Word
  | .roll => v.roll
  | .pitch => v.pitch
  | .throttle => v.throttle
  | .yaw => v.yaw

/-- `GET_STICK a` (R172). -/
def execGetStick (a : Axis) (s : State) : Answer :=
  admitted byConsumer s (.next (finish (returning s (.stick (stickAt s.stick a)))))

/-- `GET_SW i` (R173). -/
def execGetSw (i : Fin 16) (s : State) : Answer :=
  admitted byConsumer s (.next (finish (returning s (.switch (getSwitch s.switchBank i)))))

/-- `SET_SW i, v` (R174): the two low bits of `v`. -/
def execSetSw (i : Fin 16) (v : Byte) (s : State) : Answer :=
  admitted byConsumer s (.next (finish (silent (s.setSwitches (setSwitch s.switchBank i (v.setWidth 2))))))

/-- `IS_NEW` (R175): the current value (log 15). -/
def execIsNew (s : State) : Answer :=
  admitted byConsumer s (.next (finish (returning s (.isNew s.newPacket))))

/-- `CLR_NEW` (R176). -/
def execClrNew (s : State) : Answer :=
  admitted byConsumer s (.next (finish (silent (s.setNew false))))

/-- `GET_LINK` (R177). -/
def execGetLink (s : State) : Answer :=
  admitted byConsumer s (.next (finish (returning s (.link (linkBits s.signalLost s.failsafe)))))

end Sys2Proof.Machine
end

