-- ==== Sys2Proof/Machine/FixedPoint.lean ====
section
/-! DEFINITION. The IEEE-754-to-fixed-point converter and BITS2FIX (44_fixed_point.md). -/

namespace Sys2Proof.Machine

/-- `x[30:23]` (R71). -/
def exponent (x : Word) : Nat := (x.extractLsb' 23 8).toNat

/-- `m`: the 23 mantissa bits with the leading 1 at bit 23 (R71, R142). -/
def mantissa (x : Word) : BitVec 24 := 1 <<< 23 ||| (x.extractLsb' 0 23).setWidth 24

/-- `S = (23 - F) - (e - 127)`, a mathematical integer (R142). -/
def shiftAmount (F : Nat) (x : Word) : Int := (23 - (F : Int)) - ((exponent x : Int) - 127)

/-- The sign is applied after the shift (R145). -/
def signed (x : Word) (mag : Word) : Word :=
  if x.getLsbD 31 then 0 - mag else mag

/-- The converter (R140): `none` where the result is `UNSPECIFIED(i32)` (R144). -/
def bitsToFixed (F : Nat) (x : Word) : Option Word :=
  if exponent x = 0 then some 0
  else if 24 ≤ shiftAmount F x then some (signed x 0)
  else if 0 ≤ shiftAmount F x then
    some (signed x ((mantissa x >>> (shiftAmount F x).toNat).setWidth 32))
  else none

/-- A converter result, the free value at index `n` where it is unspecified (R144, V1). -/
def settled (v : Option Word) (n : Nat) : Word := v.getD (Config.freeWord n)

/-- How many free values a converter result takes. -/
def takes (v : Option Word) : Nat := if v.isSome then 0 else 1

/-- BITS2FIX (R140): pure, but for the draw counter where the result is unspecified. -/
def convert (x : Word) (s : State) : Ended :=
  let v := bitsToFixed s.cfg.fixFracBits x
  returning (s.drawn (takes v)) (.fixed (settled v s.draws))

/-- `BITS2FIX x` (R140). -/
def execBits2fix (x : Word) (s : State) : Answer :=
  admitted byEither s (.next (finish (convert x s)))

end Sys2Proof.Machine
end

