-- ==== Sys2Proof/Machine/Decoders.lean ====
section
/-! DEFINITION. The three depacketizers (41_decode_ch11.md, 42_decode_ckm.md, 43_decode_joy.md) and DECODE
(46_accessors.md R170). -/

namespace Sys2Proof.Machine

/-- What a depacketizer answers: its code and the state it leaves. -/
abbrev Unpacked := Code × State

/-! ## CH11 (R110) -/

/-- Entry `k` of the channel array after a CH11 decode (R111, R112). -/
def ch11Channel (s : State) (k : Nat) : Half :=
  if k < 16 then (ch11Field s k).setWidth 16
  else sentinel s.cfg ((ch11Flags s).getLsbD (k - 16))

/-- The stick values of a CH11 frame: fields 0 to 3 are roll, pitch, yaw, throttle (R113). -/
def ch11Sticks (s : State) : Sticks where
  roll := Config.chanToStick (ch11Channel s 0)
  pitch := Config.chanToStick (ch11Channel s 1)
  yaw := Config.chanToStick (ch11Channel s 2)
  throttle := Config.chanToStick (ch11Channel s 3)

/-- `decode_CH11()` (R110): it cannot fail (R114). -/
def decodeCh11 (s : State) : Unpacked :=
  (.valid,
    ((s.setChannels (Vector.ofFn fun k => ch11Channel s k) 18).setLink
      (lostBit (ch11Flags s)) (failBit (ch11Flags s))).setSticks (ch11Sticks s))

/-! ## CKM (R120) -/

/-- Entry `k` of the channel array after a CKM decode: a word of the frame (R122), or unspecified (R21, V3). -/
def ckmChannel (s : State) (m : CkmModel) (k : Nat) : Half :=
  if k < m.nch then ckmWord s m k else Config.freeHalf (s.draws + k)

/-- The stick values of a CKM frame: words 0 to 3 are roll, pitch, throttle, yaw; fewer than four channels write
none (R123). -/
def ckmSticks (s : State) (m : CkmModel) : Sticks :=
  if 4 ≤ m.nch then
    { roll := Config.chanToStick (ckmWord s m 0)
      pitch := Config.chanToStick (ckmWord s m 1)
      throttle := Config.chanToStick (ckmWord s m 2)
      yaw := Config.chanToStick (ckmWord s m 3) }
  else s.stick

/-- The checksum test (R65, R121). -/
def ckmPasses (s : State) (m : CkmModel) : Bool :=
  ckmField s m == expected s.cfg.csumMode (ckmSum s m)

/-- `decode_CKM()` (R120) on the model it reads: a failure writes nothing (R124). The 18 indices of its free values
are taken together (log 20). -/
def decodeCkm (m : CkmModel) (s : State) : Unpacked :=
  if ckmPasses s m then
    (.valid,
      ((s.setChannels (Vector.ofFn fun k => ckmChannel s m k) m.nch).setSticks (ckmSticks s m)).drawn 18)
  else (.invalid, s)

/-! ## JOY (R130) -/

/-- The converter on the float field at an offset (R67), the free value at index `n` where it is unspecified. -/
def joyStick (s : State) (o n : Nat) : Word :=
  settled (bitsToFixed s.cfg.fixFracBits (wordAt s o)) n

/-- The stick values of a JOY frame (R133): yaw, throttle, roll, pitch in wire order, pitch negated. -/
def joySticks (s : State) : Sticks where
  yaw := joyStick s 3 s.draws
  throttle := joyStick s 7 (s.draws + 1)
  roll := joyStick s 11 (s.draws + 2)
  pitch := 0 - joyStick s 15 (s.draws + 3)

/-- `decode_JOY()` (R130): the checksum before the identity (R131); a failure writes nothing (R135). The four
indices of its free values are taken together (log 20). -/
def decodeJoy (s : State) : Unpacked :=
  if joyField s ≠ joySum s then (.invalid, s)
  else if joyIdentity s then (.valid, ((s.setSticks (joySticks s)).setSwitches (joySwitches s)).drawn 4)
  else (.foreign, s)

/-! ## DECODE (R170) -/

/-- A depacketizer that needs `extent` bytes: those the buffer does not have are free values, and the draw counter moves
past them, whatever the code (log 16). -/
def reading (extent : Nat) (s : State) (u : Unpacked) : Unpacked :=
  (u.1, u.2.drawn (extent - s.cfg.frameCap))

/-- The depacketizer that PROTO selects (R170). -/
def unpack (s : State) : Except Fault Unpacked :=
  match s.cfg.proto with
  | .ch11 => .ok (reading ch11Extent s (decodeCh11 s))
  | .ckm =>
    match s.cfg.ckmModels[s.model]? with
    | some m => .ok (reading (ckmExtent m) s (decodeCkm m s))
    | none => .error .noSuchModel
  | .joy => .ok (reading joyExtent s (decodeJoy s))

/-- The class a code reports (R190). -/
def classOf : Code → Option ErrorClass
  | .none => none
  | .valid => none
  | .invalid => some .checksumFailure
  | .foreign => some .identityMismatch

/-- The common end of DECODE (R170): `frame_complete` is cleared whatever the code; `new_packet` is set on VALID
only, and never cleared here. -/
def consumed (u : Unpacked) : Ended :=
  ⟨(u.2.setComplete false).setNew (u.1 == .valid || u.2.newPacket), some (.code u.1), classOf u.1⟩

/-- DECODE's effect (R170). -/
def consumeFrame (s : State) : Answer :=
  if s.frameComplete then
    match unpack s with
    | .ok u => .next (finish (consumed u))
    | .error f => .fault f
  else .next (finish (returning s (.code .none)))

/-- `DECODE` (R170). -/
def execDecode (s : State) : Answer :=
  admitted byConsumer s (consumeFrame s)

end Sys2Proof.Machine
end

