-- ==== Sys2Proof/Machine/Framing.lean ====
section
/-! DEFINITION. The framing state machine (40_framing.md): PUSH and LOADF. -/

namespace Sys2Proof.Machine

/-- What `frame_select` answers for a byte that can start a frame (R90): the length, and on CKM the model. -/
structure Selected where
  len : Nat
  model : Option Nat
  deriving DecidableEq, Repr

/-- The first entry of the model table whose `sync` is the byte (R90); `j` is the index of the table's head. -/
def selectModel (b : Byte) : Nat → List CkmModel → Option Selected
  | _, [] => none
  | j, m :: ms => if m.sync = b then some ⟨m.len, some j⟩ else selectModel b (j + 1) ms

/-- `frame_select(b)` (R90). -/
def frameSelect (c : Config) (b : Byte) : Option Selected :=
  match c.proto with
  | .ch11 => if b = c.ch11Sync then some ⟨ch11Len, none⟩ else none
  | .ckm => selectModel b 0 c.ckmModels
  | .joy => some ⟨c.joyLen, none⟩

/-- Overflow (R96, R195): back to EMPTY, the buffer and `frame_complete` left as they are. -/
def overflowed (s : State) : Ended :=
  reporting (s.frameAt .empty 0) .overflow (.completed false)

/-- The store step of a byte in FILLING (R95), with the capacity test before it (R96) and the completion test after
it (R97). -/
def storeStep (b : Byte) (s : State) : Ended :=
  if s.cfg.frameCap ≤ s.widx then overflowed s
  else if s.widx + 1 = s.frameLen then
    returning ((s.store s.widx b).complete (s.widx + 1)) (.completed true)
  else returning ((s.store s.widx b).frameAt .filling (s.widx + 1)) (.completed false)

/-- A byte examined as a first byte: discarded (R93), or accepted (R94) and stored. -/
def firstByte (b : Byte) (s : State) : Ended :=
  match frameSelect s.cfg b with
  | none => reporting s .desync (.completed false)
  | some sel => storeStep b ((s.latch sel.len sel.model).frameAt .filling s.widx)

/-- PUSH's effect (R91): a byte in FULL first returns the machine to EMPTY (R92). -/
def pushByte (b : Byte) (s : State) : Ended :=
  match s.fsm with
  | .full => firstByte b (s.frameAt .empty 0)
  | .empty => firstByte b s
  | .filling => storeStep b s

/-- `PUSH b` (R91). -/
def execPush (b : Byte) (s : State) : Answer :=
  admitted byProducer s (.next (finish (pushByte b s)))

/-- LOADF's effect (R99): the size test before the capacity test (R198). -/
def loadFrame (d : List Byte) (s : State) : Ended :=
  if d.length ≠ s.cfg.joyLen then returning s (.completed false)
  else if s.cfg.frameCap < d.length then overflowed s
  else returning (((s.storeAll 0 d).latch d.length none).complete d.length) (.completed true)

/-- `LOADF n, d` (R99), on a JOY instance only (R77). -/
def execLoadf (d : List Byte) (s : State) : Answer :=
  admitted byProducer s
    (if s.cfg.proto = .joy then .next (finish (loadFrame d s)) else .refused .wrongProtocol)

end Sys2Proof.Machine
end

