-- ==== Sys2Proof/Machine/Handoff.lean ====
section
/-! DEFINITION. The handoff primitives (45_handoff.md): SIG_SLOT, SIG_Q, WAIT_SLOT, WAIT_Q, and how a blocked wait
goes on. -/

namespace Sys2Proof.Machine

/-- `SIG_SLOT` (R152). -/
def execSigSlot (s : State) : Answer :=
  admitted byProducer s (.next (finish (silent (s.setSlot true))))

/-- A post to the queue (R154): dropped when the queue is full. -/
def postQueue (s : State) : State :=
  if s.qCount < s.cfg.qDepth then s.setQueue (s.qCount + 1) else s

/-- `SIG_Q` (R154). -/
def execSigQ (s : State) : Answer :=
  admitted byProducer s (.next (finish (silent (postQueue s))))

/-- Does a primitive hold a post? -/
def holdsPost (p : Primitive) (s : State) : Bool :=
  match p with
  | .slot => s.slotPending
  | .queue => decide (0 < s.qCount)

/-- A wait takes a post (R153, R155). -/
def takePost (p : Primitive) (s : State) : State :=
  match p with
  | .slot => s.setSlot false
  | .queue => s.setQueue (s.qCount - 1)

/-- How a wait completes, if it is enabled to: a post beats an expiry (R156). `none`: it stays blocked. -/
def waitEnds (p : Primitive) (expired : Bool) (s : State) : Option Ended :=
  if holdsPost p s then some (returning (takePost p s) (.signaled true))
  else if expired then some (returning s (.signaled false))
  else none

/-- A wait as it is issued: with `t = 0` its timeout has expired at once; otherwise it completes or blocks (R156). -/
def waitOn (p : Primitive) (t : Word) (s : State) : State :=
  match waitEnds p (t == 0) s with
  | some e => finish e
  | none => s.setWait (some ⟨p, false⟩)

/-- `WAIT_SLOT t` (R153). -/
def execWaitSlot (t : Word) (s : State) : Answer :=
  admitted byConsumer s (.next (waitOn .slot t s))

/-- `WAIT_Q t` (R155). -/
def execWaitQ (t : Word) (s : State) : Answer :=
  admitted byConsumer s (.next (waitOn .queue t s))

/-- The environment declares the blocked wait's timeout expired (R156). -/
def declareExpired (s : State) : Answer :=
  match s.wait with
  | some w => .next (s.setWait (some ⟨w.prim, true⟩))
  | none => .refused .noWaitInFlight

/-- The moment at which the blocked wait completes, if it is enabled to; otherwise it stays blocked (R156). -/
def resumeWait (s : State) : Answer :=
  match s.wait with
  | some w =>
    match waitEnds w.prim w.expired s with
    | some e => .next ((finish e).setWait none)
    | none => .next s
  | none => .refused .noWaitInFlight

end Sys2Proof.Machine
end

