-- ==== Sys2Proof/Machine/Reset.lean ====
section
/-! DEFINITION. RESET (70_reset_and_hazards.md R217): the values of 10_state.md R30, free values where R30 says
UNSPECIFIED. -/

namespace Sys2Proof.Machine

/-- A memory whose first `k` bytes are free values, drawn from index `n` on (R30, V4). -/
def freeMemory (n : Nat) : Nat → Memory
  | 0 => []
  | k + 1 => Memory.write (freeMemory n k) k (Config.freeByte (n + k))

/-- `frame_len` after RESET: any value of its range 1 to 255 (R12, R30). -/
def freeFrameLen (n : Nat) : Nat := 1 + Config.freeNat n % 255

/-- `model` after RESET: any index of the table on a CKM instance; elsewhere the element does not exist and stays
(R13, R30, log 17). -/
def freeModel (n : Nat) (s : State) : Nat :=
  if s.cfg.proto = .ckm then Config.freeNat (n + 1) % s.cfg.ckmModels.length else s.model

/-- The indices RESET takes: as many as the longest of the elements it draws. -/
def resetDraws (s : State) : Nat := s.cfg.frameCap + 18

/-- The state after RESET (R217, R30). -/
def resetState (s : State) : State :=
  { s with
    mem := freeMemory s.draws s.cfg.frameCap
    widx := 0
    frameLen := freeFrameLen s.draws
    model := freeModel s.draws s
    fsm := .empty
    frameComplete := false
    newPacket := false
    failsafe := false
    signalLost := false
    ch := Vector.ofFn fun k => Config.freeHalf (s.draws + k)
    chCount := 0
    stick := ⟨Config.freeWord s.draws, Config.freeWord (s.draws + 1), Config.freeWord (s.draws + 2),
      Config.freeWord (s.draws + 3)⟩
    slotPending := false
    qCount := 0
    switchBank := Config.freeWord (s.draws + 4)
    draws := s.draws + resetDraws s }

/-- `RESET` (R217), with no operation in flight. -/
def execReset (s : State) : Answer :=
  admitted byEnvironment s
    (if s.wait.isSome then .refused .resetInFlight else .next (finish (silent (resetState s))))

end Sys2Proof.Machine
end

