-- ==== Sys2Proof/Machine/Dispatch.lean ====
section
/-! DEFINITION. One arm per operation (30_encoding.md R75). -/

namespace Sys2Proof.Machine

def exec (i : Instr) (s : State) : Host.Outcome State Fault Refusal :=
  match i with
  -- 40_framing.md
  | .push b => Sys2Proof.Machine.execPush b s
  | .loadf d => Sys2Proof.Machine.execLoadf d s
  -- 45_handoff.md
  | .sigSlot => Sys2Proof.Machine.execSigSlot s
  | .sigQ => Sys2Proof.Machine.execSigQ s
  | .waitSlot t => Sys2Proof.Machine.execWaitSlot t s
  | .waitQ t => Sys2Proof.Machine.execWaitQ t s
  -- 46_accessors.md
  | .decode => Sys2Proof.Machine.execDecode s
  | .getCh k => Sys2Proof.Machine.execGetCh k s
  | .getStick a => Sys2Proof.Machine.execGetStick a s
  | .getSw k => Sys2Proof.Machine.execGetSw k s
  | .setSw k v => Sys2Proof.Machine.execSetSw k v s
  | .isNew => Sys2Proof.Machine.execIsNew s
  | .clrNew => Sys2Proof.Machine.execClrNew s
  | .getLink => Sys2Proof.Machine.execGetLink s
  -- 44_fixed_point.md
  | .bits2fix x => Sys2Proof.Machine.execBits2fix x s
  -- 70_reset_and_hazards.md
  | .reset => Sys2Proof.Machine.execReset s

end Sys2Proof.Machine
end

