-- ==== Sys2Proof/Machine/Ports.lean ====
section
/-! DEFINITION. The ports: how a command or an event is taken from the stream (30_encoding.md R74, 00_scope.md R9). -/

namespace Sys2Proof.Machine

/-- The refusal of bytes that are no command (R77). -/
def refusalOf : DecodeError → Refusal
  | .reservedOpcode op => .reservedOpcode op
  | .truncated => .truncatedCommand
  | .illegalAxis a => .illegalAxis a
  | .illegalSwitch i => .illegalSwitch i

/-- What is left of the stream after a command is taken: the issuer's further bytes, if any, stay in front (R74). -/
def streamAfter (c : Ctx) (left : List Byte) (rest : List Event) : List Event :=
  if left.isEmpty then rest else .command c left :: rest

/-- Take one command from the bytes a context has issued, and run it. -/
def runCommand (c : Ctx) (bytes : List Byte) (rest : List Event) (s : State) : Answer :=
  match decode bytes with
  | .ok (i, left) => exec i (s.taken c (streamAfter c left rest))
  | .error e => .refused (refusalOf e)

/-- Take the next event. With none presented the block waits (R215, log 12). -/
def takeEvent (s : State) : Answer :=
  match s.stream with
  | [] => .next s
  | .command c bytes :: rest => runCommand c bytes rest s
  | .expire :: rest => declareExpired (s.taken .environment rest)
  | .resume :: rest => resumeWait (s.taken .consumer rest)

/-- Who issues a table word's command: the context R75 allows; for a word that is no command, the environment. -/
def tableIssuer (nbits w : Nat) : Ctx :=
  match decodeTableWord nbits w with
  | some i => usualIssuer i
  | none => .environment

/-- A blocked consumer issues nothing, and RESET waits for it (R156, R217): only a producer command can be presented
in front of a blocked wait (log 18). -/
def waitBeside (c : Ctx) (w : Option Wait) : Option Wait :=
  if c = .producer then w else none

end Sys2Proof.Machine
end

