-- ==== Sys2Proof/Machine/Step.lean ====
section
/-! DEFINITION. One step of the block: the next event presented to its ports. -/

namespace Sys2Proof.Machine

/-- One step (R48): one whole operation, one declaration, or waiting for the outside. -/
def step (s : State) : Host.Outcome State Fault Refusal :=
  takeEvent s

/-- `s` with one command presented next, by the context that may issue it (log 8, log 18). -/
def State.withFetchWord (s : State) (nbits w : Nat) : State :=
  { s with
    stream := .command (tableIssuer nbits w) (tableCommand nbits w) :: s.stream
    wait := waitBeside (tableIssuer nbits w) s.wait }

end Sys2Proof.Machine
end

