-- ==== Sys2Proof/Safety.lean ====
section
/-! DEFINITION. What the statements speak of: the invariants of 10_state.md R15 and of the other rules that say what
always holds, when an operation completes, and the groups of state a frame names. -/

namespace Sys2Proof.Machine

/-! ## Who may act -/

/-- The producer issues the operation; it is never blocked (R157). -/
def producerReady (s : State) : Prop := s.issuer = .producer

/-- The consumer issues the operation and is not blocked in a wait (R156). -/
def consumerReady (s : State) : Prop := s.issuer = .consumer ∧ s.wait = none

/-- The environment issues the operation and nothing is in flight (R217). -/
def environmentReady (s : State) : Prop := s.issuer = .environment ∧ s.wait = none

/-- Either context may issue the operation (R75: "any"). -/
def eitherReady (s : State) : Prop := producerReady s ∨ consumerReady s

/-- The ctx column of R75. -/
def mayIssue (i : Instr) (c : Ctx) : Bool :=
  match i with
  | .push _ | .loadf _ | .sigSlot | .sigQ => c == .producer
  | .waitSlot _ | .waitQ _ | .decode | .getCh _ | .getStick _ | .getSw _ | .setSw _ _ | .isNew | .clrNew
  | .getLink => c == .consumer
  | .bits2fix _ => c == .producer || c == .consumer
  | .reset => c == .environment

/-- The opcodes of R75. -/
def opcodes : List Byte :=
  [0x01, 0x02, 0x03, 0x04, 0x10, 0x11, 0x12, 0x13, 0x14, 0x15, 0x16, 0x17, 0x18, 0x19, 0x20, 0x7F]

/-- The conditions under which R75, R77, R156 and R217 let an operation run: its context may issue it, LOADF is on a JOY
instance, and nothing the consumer or the environment issues meets a blocked wait. -/
def mayRun (i : Instr) (s : State) : Prop :=
  mayIssue i s.issuer = true ∧ (∀ d, i = .loadf d → s.cfg.proto = .joy) ∧ (s.issuer ≠ .producer → s.wait = none)

/-- FEED (R79): bytes pushed one after the other. -/
def feed : List Byte → State → Answer
  | [], s => .next s
  | b :: bs, s =>
    match exec (.push b) s with
    | .next t => feed bs t
    | .fault f => .fault f
    | .refused r => .refused r

/-- The state with one more result, handed to the issuer. -/
def replied (s : State) (r : Result) : State :=
  { s with results := s.results ++ [⟨s.issuer, r⟩] }

/-! ## Groups of state -/

/-- The framing elements (R10 to R14) are the same, the buffer byte by byte. -/
def sameFraming (s t : State) : Prop :=
  (∀ a, t.buf a = s.buf a) ∧ t.widx = s.widx ∧ t.frameLen = s.frameLen ∧ t.model = s.model ∧ t.fsm = s.fsm

/-- The published state (00_scope.md, glossary) is the same. -/
def samePublished (s t : State) : Prop :=
  t.ch = s.ch ∧ t.chCount = s.chCount ∧ t.stick = s.stick ∧ t.switchBank = s.switchBank
    ∧ t.failsafe = s.failsafe ∧ t.signalLost = s.signalLost

/-- What is no operation's to change: the parameters (R6), the issuer and the events still to come. -/
def sameOutside (s t : State) : Prop :=
  t.cfg = s.cfg ∧ t.issuer = s.issuer ∧ t.stream = s.stream

/-- The table of R30, from a state `s` to the one after RESET: the values it gives, and the ranges of the elements it
leaves UNSPECIFIED (R10, R12, R13). -/
def resetValues (s t : State) : Prop :=
  t.fsm = .empty ∧ t.widx = 0 ∧ t.frameComplete = false ∧ t.newPacket = false
    ∧ t.failsafe = false ∧ t.signalLost = false ∧ t.slotPending = false ∧ t.qCount = 0 ∧ t.chCount = 0
    ∧ 1 ≤ t.frameLen ∧ t.frameLen ≤ 255
    ∧ (s.cfg.wf = true → s.cfg.proto = .ckm → t.model < s.cfg.ckmModels.length)
    ∧ Memory.wf t.mem = true ∧ Memory.within t.mem s.cfg.frameCap = true
    ∧ sameOutside s t ∧ t.wait = none ∧ t.results = s.results

/-! ## Writers (the "written by" column of R27) -/

/-- The operations that write `buf`, `widx`, `frame_len`, `model` and `fsm`. -/
def writesFraming : Instr → Bool
  | .push _ | .loadf _ => true
  | _ => false

/-- The operations that set `slot_pending` or clear it. -/
def writesSlot : Instr → Bool
  | .push _ | .loadf _ | .sigSlot | .waitSlot _ => true
  | _ => false

/-- The operations that count `q_count` up or down. -/
def writesQueue : Instr → Bool
  | .sigQ | .waitQ _ => true
  | _ => false

/-- The operations that can block the consumer (R204). -/
def canBlock : Instr → Bool
  | .waitSlot _ | .waitQ _ => true
  | _ => false

/-- The operations that can draw a free value (R120, R133, R144). -/
def canDraw : Instr → Bool
  | .decode | .bits2fix _ => true
  | _ => false

/-! ## The checksums as numbers -/

/-- The mathematical sum of the first `n` bytes of the buffer. -/
def bufferSum (s : State) (n : Nat) : Nat := ((List.range n).map fun i => (s.buf i).toNat).sum

/-- The test of R65 on a model's frame, as numbers. -/
def ckmChecksumHolds (s : State) (m : CkmModel) : Prop :=
  (s.buf (m.len - 2)).toNat + 256 * (s.buf (m.len - 1)).toNat
    = match s.cfg.csumMode with
      | .sum => bufferSum s (m.len - 2) % 65536
      | .notSum => 65535 - bufferSum s (m.len - 2) % 65536
      | .negSum => (65536 - bufferSum s (m.len - 2) % 65536) % 65536

/-- The checksum test of R68, as numbers. -/
def joyChecksumHolds (s : State) : Prop := (s.buf 24).toNat = bufferSum s 24 % 256

/-- The identity test of R68. -/
def joyIdentityHolds (s : State) : Prop :=
  s.buf 0 = s.cfg.joyId[3] ∧ s.buf 1 = s.cfg.joyId[4] ∧ s.buf 2 = s.cfg.joyId[5]

/-! ## Invariants -/

/-- R15 (a), (b), (c), of which (d) is a consequence. -/
def FramingInv (s : State) : Prop :=
  match s.fsm with
  | .empty => s.widx = 0
  | .filling => 1 ≤ s.widx ∧ s.widx < s.frameLen ∧ s.widx ≤ s.cfg.frameCap
  | .full => s.widx = s.frameLen ∧ 1 ≤ s.frameLen ∧ s.frameLen ≤ s.cfg.frameCap

/-- The frame length that the protocol, and on CKM the selected model, declares (R72, R90). -/
def declaredLength (s : State) : Option Nat :=
  match s.cfg.proto with
  | .ch11 => some ch11Len
  | .ckm => s.cfg.ckmModels[s.model]?.map CkmModel.len
  | .joy => some s.cfg.joyLen

/-- The channel array on a CH11 instance, once a frame has been decoded (R111, R112). -/
def Ch11Channels (s : State) : Prop :=
  (∀ k : Fin 18, k.val < 16 → s.ch[k].toNat ≤ 2047)
    ∧ (∀ k : Fin 18, 16 ≤ k.val → s.ch[k] = s.cfg.channelLow ∨ s.ch[k] = s.cfg.channelHigh)

/-- The channel count a decoder of this protocol can have set (R21, R171). -/
def ChannelInv (s : State) : Prop :=
  match s.cfg.proto with
  | .ch11 => s.chCount = 0 ∨ (s.chCount = 18 ∧ Ch11Channels s)
  | .ckm => s.chCount = 0 ∨ ∃ m ∈ s.cfg.ckmModels, s.chCount = m.nch
  | .joy => s.chCount = 0

/-- The invariant of the block. -/
structure BlockInv (s : State) : Prop where
  /-- R6 -/
  parameters : s.cfg.wf = true
  /-- the canonical form (R10, log 4) -/
  canonical : Memory.wf s.mem = true
  /-- R10: the buffer has FRAME_CAP bytes -/
  inside : Memory.within s.mem s.cfg.frameCap = true
  /-- R15 -/
  framing : FramingInv s
  /-- R12 -/
  length : 1 ≤ s.frameLen ∧ s.frameLen ≤ 255
  /-- R13 -/
  modelIndex : s.cfg.proto = .ckm → s.model < s.cfg.ckmModels.length
  /-- R72, R94: while a frame is in progress or complete, `frame_len` is the length its first byte declared -/
  declared : s.fsm ≠ .empty → declaredLength s = some s.frameLen
  /-- R96: off CKM, a pending frame is a frame that fitted the buffer -/
  fitted : s.cfg.proto ≠ .ckm → s.frameComplete = true → 25 ≤ s.cfg.frameCap
  /-- R20, R21, R111, R171 -/
  channels : ChannelInv s
  /-- R18: off CH11, nothing writes the link bits -/
  link : s.cfg.proto ≠ .ch11 → s.failsafe = false ∧ s.signalLost = false
  /-- R24, R151 -/
  queue : s.qCount ≤ s.cfg.qDepth

/-- The buffer has the bytes DECODE reads (R45), and on CKM `model` names a model. -/
def readable (s : State) : Prop :=
  match s.cfg.proto with
  | .ch11 => ch11Extent ≤ s.cfg.frameCap
  | .ckm => ∃ m, s.cfg.ckmModels[s.model]? = some m ∧ ckmExtent m ≤ s.cfg.frameCap
  | .joy => joyExtent ≤ s.cfg.frameCap

end Sys2Proof.Machine
end

