-- ==== Sys2Proof/Certificates/Slice0/Obligations.lean ====
section
/-! DEFINITION. The statements about the model, one definition each; OBLIGATIONS.json says what each is. -/

open Sys2Proof Sys2Proof.Machine

/-! ## Commands -/

/-- Commands written out byte by byte from the table of R75 and the programs of 95_test_vectors.md. -/
def Obligations.WordsOfTheTableDecode : Prop :=
  decode [0x01, 0x0F] = .ok (.push 0x0F, [])
    ∧ decode [0x02, 0x03, 0xA1, 0xB2, 0xC3, 0x12] = .ok (.loadf [0xA1, 0xB2, 0xC3], [0x12])
    ∧ decode [0x10, 0x64, 0x00, 0x00, 0x00] = .ok (.waitSlot 100, [])
    ∧ decode [0x12] = .ok (.decode, [])
    ∧ decode [0x14, 0x02] = .ok (.getStick .throttle, [])
    ∧ decode [0x16, 0x05, 0x02] = .ok (.setSw 5 2, [])
    ∧ decode [0x20, 0x00, 0x00, 0x80, 0x3F] = .ok (.bits2fix 0x3F800000, [])
    ∧ decode [0x7F] = .ok (.reset, [])

/-- R74, R75: no bit of a command is dropped, and the decoder takes exactly the command's bytes. -/
def Obligations.DecodeOfEncodeIsTheCommand : Prop :=
  ∀ (i : Instr) (rest : List Byte), i.wf = true → decode (encode i ++ rest) = .ok (i, rest)

/-- R74, R75: a command has one encoding, and the decoder gives well-formed commands only. -/
def Obligations.DecodedBytesAreTheEncoding : Prop :=
  ∀ (bytes rest : List Byte) (i : Instr),
    decode bytes = .ok (i, rest) → i.wf = true ∧ bytes = encode i ++ rest

/-- R77: reserved and illegal commands are refused: a reserved opcode, an axis above 3, a switch above 15, LOADF off
JOY, a context that R75 does not allow. -/
def Obligations.IllegalCommandsAreRefused : Prop :=
  (∀ (s : State) (c : Ctx) (op : Byte) (tail : List Byte) (rest : List Event),
      s.stream = .command c (op :: tail) :: rest → op ∉ opcodes → step s = .refused (.reservedOpcode op))
    ∧ (∀ (s : State) (c : Ctx) (a : Byte) (tail : List Byte) (rest : List Event),
      s.stream = .command c (0x14 :: a :: tail) :: rest → 3 < a.toNat → step s = .refused (.illegalAxis a))
    ∧ (∀ (s : State) (c : Ctx) (i : Byte) (tail : List Byte) (rest : List Event),
      s.stream = .command c (0x15 :: i :: tail) :: rest → 15 < i.toNat → step s = .refused (.illegalSwitch i))
    ∧ (∀ (s : State) (c : Ctx) (i v : Byte) (tail : List Byte) (rest : List Event),
      s.stream = .command c (0x16 :: i :: v :: tail) :: rest → 15 < i.toNat → step s = .refused (.illegalSwitch i))
    ∧ (∀ (s : State) (d : List Byte),
      producerReady s → s.cfg.proto ≠ .joy → exec (.loadf d) s = .refused .wrongProtocol)
    ∧ (∀ (s : State) (i : Instr), mayIssue i s.issuer = false → exec i s = .refused .wrongContext)

/-! ## The step -/

/-- A step runs the command that the bytes presented next decode to, as issued by the context they are tagged with;
the issuer's further bytes stay in front of the stream (R74). -/
def Obligations.StepRunsTheDecodedCommand : Prop :=
  ∀ (s : State) (c : Ctx) (bytes left : List Byte) (rest : List Event) (i : Instr),
    s.stream = .command c bytes :: rest → decode bytes = .ok (i, left) →
    step s = exec i
      { s with issuer := c, stream := if left.isEmpty then rest else .command c left :: rest }

/-- With nothing presented the block waits (R215). That waiting is a step that changes nothing is the model's choice
(log 12). -/
def Obligations.StepWaitsWhenNothingIsPresented : Prop :=
  ∀ s : State, s.stream = [] → step s = .next s

/-! ## Framing -/

/-- R98: every way `(fsm, widx)` changes, row by row, with the other writes and the result of each row (RESET's are the
table of R30, and it has no result); and no other operation changes them. -/
def Obligations.PushFollowsTheTransitionTable : Prop :=
  (∀ (b : Byte) (s : State), producerReady s → s.fsm = .empty → s.widx = 0 → frameSelect s.cfg b = none →
      exec (.push b) s = .next (replied s (.completed false)))
    ∧ (∀ (b : Byte) (s : State) (sel : Selected), producerReady s → s.fsm = .empty → s.widx = 0 →
      frameSelect s.cfg b = some sel → 1 ≤ s.cfg.frameCap → 1 < sel.len →
      exec (.push b) s = .next (replied
        { s with
          fsm := .filling, widx := 1, frameLen := sel.len, model := sel.model.getD s.model
          mem := Memory.write s.mem 0 b } (.completed false)))
    ∧ (∀ (b : Byte) (s : State) (sel : Selected), producerReady s → s.fsm = .empty → s.widx = 0 →
      frameSelect s.cfg b = some sel → 1 ≤ s.cfg.frameCap → sel.len = 1 →
      exec (.push b) s = .next (replied
        { s with
          fsm := .full, widx := 1, frameLen := 1, model := sel.model.getD s.model
          mem := Memory.write s.mem 0 b, frameComplete := true, slotPending := true } (.completed true)))
    ∧ (∀ (b : Byte) (s : State), producerReady s → s.fsm = .filling → s.cfg.frameCap ≤ s.widx →
      exec (.push b) s = .next (replied { s with fsm := .empty, widx := 0 } (.completed false)))
    ∧ (∀ (b : Byte) (s : State), producerReady s → s.fsm = .filling → s.widx < s.cfg.frameCap →
      s.widx + 1 < s.frameLen →
      exec (.push b) s = .next (replied
        { s with widx := s.widx + 1, mem := Memory.write s.mem s.widx b } (.completed false)))
    ∧ (∀ (b : Byte) (s : State), producerReady s → s.fsm = .filling → s.widx < s.cfg.frameCap →
      s.widx + 1 = s.frameLen →
      exec (.push b) s = .next (replied
        { s with
          fsm := .full, widx := s.frameLen, mem := Memory.write s.mem s.widx b
          frameComplete := true, slotPending := true } (.completed true)))
    ∧ (∀ (b : Byte) (s : State), producerReady s → s.fsm = .full →
      exec (.push b) s = exec (.push b) { s with fsm := .empty, widx := 0 })
    ∧ (∀ (d : List Byte) (s : State), producerReady s → s.cfg.proto = .joy → d.length ≠ s.cfg.joyLen →
      exec (.loadf d) s = .next (replied s (.completed false)))
    ∧ (∀ (d : List Byte) (s : State), producerReady s → s.cfg.proto = .joy → d.length = s.cfg.joyLen →
      s.cfg.frameCap < d.length →
      exec (.loadf d) s = .next (replied { s with fsm := .empty, widx := 0 } (.completed false)))
    ∧ (∀ (d : List Byte) (s : State), producerReady s → s.cfg.proto = .joy → d.length = s.cfg.joyLen →
      d.length ≤ s.cfg.frameCap →
      exec (.loadf d) s = .next (replied
        { s with
          fsm := .full, widx := d.length, frameLen := d.length, mem := Memory.writeAll s.mem 0 d
          frameComplete := true, slotPending := true } (.completed true)))
    ∧ (∀ s : State, environmentReady s → ∃ t, exec .reset s = .next t ∧ resetValues s t)
    ∧ (∀ (i : Instr) (s t : State), writesFraming i = false → i ≠ .reset → exec i s = .next t →
      t.fsm = s.fsm ∧ t.widx = s.widx)

/-- R45, R95: PUSH writes exactly one byte, at the write index (0 for a byte arriving in FULL), or none; every other
byte of the buffer reads as before. -/
def Obligations.PushStoresOneByteAtTheWriteIndex : Prop :=
  ∀ (b : Byte) (s t : State), Memory.wf s.mem = true → exec (.push b) s = .next t →
    ∀ a : Nat, t.buf a =
      if (s.fsm = .filling ∨ (frameSelect s.cfg b).isSome)
          ∧ (if s.fsm = .full then 0 else s.widx) < s.cfg.frameCap
          ∧ a = (if s.fsm = .full then 0 else s.widx)
      then b else s.buf a

/-- R97: PUSH returns 1 exactly when its byte completes the frame; then the machine is FULL, `widx = frame_len`, and
both `frame_complete` and `slot_pending` are set in the same step. Otherwise neither of the two changes. -/
def Obligations.PushCompletesExactlyWhenTheFrameIsFull : Prop :=
  ∀ (b : Byte) (s t : State), BlockInv s → exec (.push b) s = .next t →
    (t = replied { t with results := s.results } (.completed true) ∧ t.fsm = .full ∧ t.widx = t.frameLen
        ∧ t.frameComplete = true ∧ t.slotPending = true)
      ∨ (t = replied { t with results := s.results } (.completed false) ∧ t.fsm ≠ .full ∧ t.widx ≠ t.frameLen
        ∧ t.frameComplete = s.frameComplete ∧ t.slotPending = s.slotPending)

/-- R93: a byte that cannot start a frame is discarded: in EMPTY nothing changes and PUSH returns 0, and any number of
such bytes in a row leave the block as it was but for those results; in FULL the machine is left in EMPTY. -/
def Obligations.DiscardedBytesLeaveTheBlockAsItWas : Prop :=
  (∀ (d : List Byte) (s : State), producerReady s → s.fsm = .empty →
      (∀ b ∈ d, frameSelect s.cfg b = none) →
      feed d s = .next { s with results := s.results ++ d.map fun _ => ⟨.producer, .completed false⟩ })
    ∧ (∀ (b : Byte) (s : State), producerReady s → s.fsm = .full → frameSelect s.cfg b = none →
      exec (.push b) s = .next (replied { s with fsm := .empty, widx := 0 } (.completed false)))

/-- R99: LOADF on a JOY instance. A wrong size changes nothing; a frame the buffer cannot hold returns the machine to
EMPTY; otherwise bytes 0 .. n-1 are replaced and every other byte stays. -/
def Obligations.LoadfDeliversAWholeFrame : Prop :=
  ∀ (d : List Byte) (s : State), producerReady s → s.cfg.proto = .joy → Memory.wf s.mem = true →
    (d.length ≠ s.cfg.joyLen → exec (.loadf d) s = .next (replied s (.completed false)))
      ∧ (d.length = s.cfg.joyLen → s.cfg.frameCap < d.length →
        exec (.loadf d) s = .next (replied { s with fsm := .empty, widx := 0 } (.completed false)))
      ∧ (d.length = s.cfg.joyLen → d.length ≤ s.cfg.frameCap →
        ∃ m : Memory,
          exec (.loadf d) s = .next (replied
            { s with
              mem := m, frameLen := d.length, widx := d.length, fsm := .full
              frameComplete := true, slotPending := true } (.completed true))
          ∧ ∀ a : Nat, Memory.read m a = (d[a]?).getD (s.buf a))

/-- R91, R94, R95, R97: a whole frame fed to a machine in EMPTY or FULL, or the missing bytes of a frame fed to one in
FILLING, completes: every byte lands at its offset, the rest of the buffer stays, and both bits are set. -/
def Obligations.FeedCompletesTheFrame : Prop :=
  (∀ (d : List Byte) (s : State), BlockInv s → producerReady s → s.fsm = .filling → s.frameLen ≤ s.cfg.frameCap →
      d.length = s.frameLen - s.widx →
      ∃ t, feed d s = .next t ∧ t.fsm = .full ∧ t.widx = s.frameLen ∧ t.frameLen = s.frameLen
        ∧ t.model = s.model ∧ t.frameComplete = true ∧ t.slotPending = true
        ∧ ∀ a : Nat, t.buf a = if s.widx ≤ a then (d[a - s.widx]?).getD (s.buf a) else s.buf a)
    ∧ (∀ (b : Byte) (d : List Byte) (s : State) (sel : Selected), BlockInv s → producerReady s → s.fsm ≠ .filling →
      frameSelect s.cfg b = some sel → sel.len ≤ s.cfg.frameCap → d.length + 1 = sel.len →
      ∃ t, feed (b :: d) s = .next t ∧ t.fsm = .full ∧ t.widx = sel.len ∧ t.frameLen = sel.len
        ∧ t.model = sel.model.getD s.model ∧ t.frameComplete = true ∧ t.slotPending = true
        ∧ ∀ a : Nat, t.buf a = ((b :: d)[a]?).getD (s.buf a))

/-- R219, R225: `j` accepted bytes of a later frame stored over a pending frame leave `new[0 .. j-1]` followed by
`old[j ..]`, still pending, also when discarded bytes came between (EMPTY). A DECODE issued then decodes that mixture:
on CH11 it is VALID and publishes the mixture's fields; on CKM, with the later frame's model, it is VALID exactly if the
mixture's checksum holds; on JOY exactly if its checksum and identity do. -/
def Obligations.LateDecodeSeesTheMixture : Prop :=
  ∀ (b : Byte) (d : List Byte) (s : State) (sel : Selected), BlockInv s → producerReady s → s.fsm ≠ .filling →
    s.frameComplete = true → frameSelect s.cfg b = some sel →
    d.length + 1 < sel.len → d.length + 1 ≤ s.cfg.frameCap →
    ∃ t, feed (b :: d) s = .next t ∧ t.frameComplete = true ∧ t.fsm = .filling ∧ t.widx = d.length + 1
      ∧ t.model = sel.model.getD s.model
      ∧ (∀ a : Nat, t.buf a = ((b :: d)[a]?).getD (s.buf a))
      ∧ (s.wait = none → ∃ u c, exec .decode { t with issuer := .consumer } = .next u
        ∧ u.results = t.results ++ [⟨.consumer, .code c⟩] ∧ c ≠ .none ∧ u.frameComplete = false
        ∧ sameFraming t u
        ∧ (s.cfg.proto = .ch11 → c = .valid
            ∧ (∀ k : Fin 18, k.val < 16 → ∀ j : Nat, u.ch[k].getLsbD j =
              (decide (j < 11) && (t.buf (1 + (11 * k.val + j) / 8)).getLsbD ((11 * k.val + j) % 8)))
            ∧ u.signalLost = (t.buf 23).getLsbD 2 ∧ u.failsafe = (t.buf 23).getLsbD 3)
        ∧ (s.cfg.proto = .ckm → ∀ m, s.cfg.ckmModels[t.model]? = some m → m.len ≤ s.cfg.frameCap →
            (c = .valid ↔ ckmChecksumHolds t m)
              ∧ (c = .valid → ∀ k : Fin 18, k.val < m.nch → u.ch[k].toNat =
                (t.buf (m.off + 2 * k.val)).toNat + 256 * (t.buf (m.off + 2 * k.val + 1)).toNat))
        ∧ (s.cfg.proto = .joy → (c = .valid ↔ joyChecksumHolds t ∧ joyIdentityHolds t)))

/-! ## Handoff -/

/-- R152: SIG_SLOT sets `slot_pending` and does nothing else. -/
def Obligations.SigSlotPosts : Prop :=
  ∀ s : State, producerReady s → exec .sigSlot s = .next { s with slotPending := true }

/-- R154: SIG_Q counts one up below Q_DEPTH; a post to a full queue is dropped. -/
def Obligations.SigQPostsUpToItsDepth : Prop :=
  ∀ s : State, producerReady s →
    (s.qCount < s.cfg.qDepth → exec .sigQ s = .next { s with qCount := s.qCount + 1 })
      ∧ (s.cfg.qDepth ≤ s.qCount → exec .sigQ s = .next s)

/-- R153: WAIT_SLOT takes a pending post and returns 1, returns 0 when there is none and `t = 0`, and blocks
otherwise. -/
def Obligations.WaitSlotTakesThePost : Prop :=
  ∀ (t : Word) (s : State), consumerReady s →
    (s.slotPending = true →
        exec (.waitSlot t) s = .next (replied { s with slotPending := false } (.signaled true)))
      ∧ (s.slotPending = false → t = 0 → exec (.waitSlot t) s = .next (replied s (.signaled false)))
      ∧ (s.slotPending = false → t ≠ 0 → exec (.waitSlot t) s = .next { s with wait := some ⟨.slot, false⟩ })

/-- R155: WAIT_Q takes one post and returns 1, returns 0 when there is none and `t = 0`, and blocks otherwise. -/
def Obligations.WaitQTakesAPost : Prop :=
  ∀ (t : Word) (s : State), consumerReady s →
    (0 < s.qCount → exec (.waitQ t) s = .next (replied { s with qCount := s.qCount - 1 } (.signaled true)))
      ∧ (s.qCount = 0 → t = 0 → exec (.waitQ t) s = .next (replied s (.signaled false)))
      ∧ (s.qCount = 0 → t ≠ 0 → exec (.waitQ t) s = .next { s with wait := some ⟨.queue, false⟩ })

/-- R156: a blocked wait. An expiry is recorded whenever it is declared. At a completion moment a post gives 1, even
beside an expiry; without a post an expiry gives 0; without either the consumer stays blocked. Nothing else changes
but the primitive's own bit or count (R204). -/
def Obligations.BlockedWaitCompletes : Prop :=
  ∀ (s : State) (w : Wait) (rest : List Event), s.wait = some w →
    (s.stream = .expire :: rest →
        step s = .next { s with wait := some ⟨w.prim, true⟩, issuer := .environment, stream := rest })
      ∧ (s.stream = .resume :: rest → w.prim = .slot → s.slotPending = true →
        step s = .next (replied
          { s with slotPending := false, wait := none, issuer := .consumer, stream := rest } (.signaled true)))
      ∧ (s.stream = .resume :: rest → w.prim = .queue → 0 < s.qCount →
        step s = .next (replied
          { s with qCount := s.qCount - 1, wait := none, issuer := .consumer, stream := rest } (.signaled true)))
      ∧ (s.stream = .resume :: rest → holdsPost w.prim s = false → w.expired = true →
        step s = .next (replied { s with wait := none, issuer := .consumer, stream := rest } (.signaled false)))
      ∧ (s.stream = .resume :: rest → holdsPost w.prim s = false → w.expired = false →
        step s = .next { s with issuer := .consumer, stream := rest })

/-- R156, R159, R217: a blocked consumer issues nothing, and RESET is refused while it is blocked. -/
def Obligations.BlockedConsumerIssuesNothing : Prop :=
  (∀ (i : Instr) (s : State), s.wait.isSome = true → s.issuer = .consumer → mayIssue i .consumer = true →
      exec i s = .refused .consumerBlocked)
    ∧ (∀ s : State, s.wait.isSome = true → s.issuer = .environment → exec .reset s = .refused .resetInFlight)

/-- R157: the producer's operations complete in their own step whatever the primitives hold and whatever the consumer
is doing, and leave a blocked consumer blocked. -/
def Obligations.ProducerIsNeverBlocked : Prop :=
  ∀ (i : Instr) (s : State), producerReady s → mayIssue i .producer = true →
    (∀ d, i = .loadf d → s.cfg.proto = .joy) → ∃ t, exec i s = .next t ∧ t.wait = s.wait

/-! ## DECODE -/

/-- R170: with no frame pending, DECODE returns NONE and writes nothing. -/
def Obligations.DecodeOfNoPendingFrame : Prop :=
  ∀ s : State, consumerReady s → s.frameComplete = false →
    exec .decode s = .next (replied s (.code .none))

/-- R170, R193: with a frame pending DECODE completes on every instance, also where a CKM model outgrows the buffer: it
returns a code other than NONE and clears `frame_complete`; `new_packet` is set on VALID only and never cleared; another
code publishes nothing; the buffer, the sequencing state and the posts stay. -/
def Obligations.DecodeConsumesThePendingFrame : Prop :=
  ∀ s : State, consumerReady s → s.frameComplete = true →
    (s.cfg.proto = .ckm → s.model < s.cfg.ckmModels.length) →
    ∃ t c, exec .decode s = .next t ∧ c ≠ .none ∧ t.results = s.results ++ [⟨.consumer, .code c⟩]
      ∧ t.frameComplete = false ∧ t.newPacket = (decide (c = .valid) || s.newPacket)
      ∧ (c ≠ .valid → samePublished s t) ∧ (c ≠ .valid → readable s → t.draws = s.draws)
      ∧ sameFraming s t ∧ sameOutside s t ∧ t.slotPending = s.slotPending ∧ t.qCount = s.qCount ∧ t.wait = none

/-- R170: two DECODEs with no completion between them return a code other than NONE at most once. -/
def Obligations.SecondDecodeReturnsNone : Prop :=
  ∀ s t : State, exec .decode s = .next t → exec .decode t = .next (replied t (.code .none))

/-- R110, R111, R112, R113, with the bit numbering of R42: bit `j` of field `k` is bit `11k + j` of the 176-bit
string that begins at offset 1. -/
def Obligations.Ch11FrameIsPublished : Prop :=
  ∀ s : State, consumerReady s → s.cfg.proto = .ch11 → s.frameComplete = true → 24 ≤ s.cfg.frameCap →
    ∃ t, exec .decode s = .next t ∧ t.results = s.results ++ [⟨.consumer, .code .valid⟩]
      ∧ (∀ k : Fin 18, k.val < 16 → ∀ j : Nat, t.ch[k].getLsbD j =
          (decide (j < 11) && (s.buf (1 + (11 * k.val + j) / 8)).getLsbD ((11 * k.val + j) % 8)))
      ∧ t.ch[16] = (if (s.buf 23).getLsbD 0 then s.cfg.channelHigh else s.cfg.channelLow)
      ∧ t.ch[17] = (if (s.buf 23).getLsbD 1 then s.cfg.channelHigh else s.cfg.channelLow)
      ∧ t.chCount = 18
      ∧ t.signalLost = (s.buf 23).getLsbD 2 ∧ t.failsafe = (s.buf 23).getLsbD 3
      ∧ t.stick.roll = Config.chanToStick t.ch[0] ∧ t.stick.pitch = Config.chanToStick t.ch[1]
      ∧ t.stick.yaw = Config.chanToStick t.ch[2] ∧ t.stick.throttle = Config.chanToStick t.ch[3]
      ∧ t.frameComplete = false ∧ t.newPacket = true ∧ t.switchBank = s.switchBank
      ∧ sameFraming s t ∧ sameOutside s t ∧ t.slotPending = s.slotPending ∧ t.qCount = s.qCount
      ∧ t.wait = none ∧ t.draws = s.draws

/-- R120, R122, R123: a CKM frame whose checksum holds. Words are published as they stand; entries at and beyond
`nch` are free values, so nothing is said of them. -/
def Obligations.CkmFrameIsPublished : Prop :=
  ∀ (s : State) (m : CkmModel), consumerReady s → s.cfg.proto = .ckm → s.frameComplete = true →
    s.cfg.ckmModels[s.model]? = some m → m.wf = true → m.len ≤ s.cfg.frameCap → ckmChecksumHolds s m →
    ∃ t, exec .decode s = .next t ∧ t.results = s.results ++ [⟨.consumer, .code .valid⟩]
      ∧ (∀ k : Fin 18, k.val < m.nch → t.ch[k].toNat =
          (s.buf (m.off + 2 * k.val)).toNat + 256 * (s.buf (m.off + 2 * k.val + 1)).toNat)
      ∧ t.chCount = m.nch
      ∧ (4 ≤ m.nch → t.stick.roll = Config.chanToStick t.ch[0] ∧ t.stick.pitch = Config.chanToStick t.ch[1]
          ∧ t.stick.throttle = Config.chanToStick t.ch[2] ∧ t.stick.yaw = Config.chanToStick t.ch[3])
      ∧ (m.nch < 4 → t.stick = s.stick)
      ∧ t.frameComplete = false ∧ t.newPacket = true ∧ t.switchBank = s.switchBank
      ∧ t.failsafe = s.failsafe ∧ t.signalLost = s.signalLost
      ∧ sameFraming s t ∧ sameOutside s t ∧ t.slotPending = s.slotPending ∧ t.qCount = s.qCount ∧ t.wait = none

/-- R120, R193 where the model's frame does not fit the buffer (R225 with a longer second model): DECODE completes all
the same. Whether the checksum holds depends on bytes that no rule states (log 16), so nothing is said of that; if it
does, every word that lies inside the buffer is published as it stands, and if it does not, nothing is published. -/
def Obligations.CkmFrameBeyondTheBufferCompletes : Prop :=
  ∀ (s : State) (m : CkmModel), consumerReady s → s.cfg.proto = .ckm → s.frameComplete = true →
    s.cfg.ckmModels[s.model]? = some m → m.wf = true → s.cfg.frameCap < m.len →
    ∃ t c, exec .decode s = .next t ∧ t.results = s.results ++ [⟨.consumer, .code c⟩] ∧ (c = .valid ∨ c = .invalid)
      ∧ (c = .valid → t.chCount = m.nch
        ∧ ∀ k : Fin 18, k.val < m.nch → m.off + 2 * k.val + 1 < s.cfg.frameCap → t.ch[k].toNat =
          (s.buf (m.off + 2 * k.val)).toNat + 256 * (s.buf (m.off + 2 * k.val + 1)).toNat)
      ∧ (c = .invalid → samePublished s t ∧ t.newPacket = s.newPacket)
      ∧ t.frameComplete = false ∧ s.draws < t.draws
      ∧ t.switchBank = s.switchBank ∧ t.failsafe = s.failsafe ∧ t.signalLost = s.signalLost
      ∧ sameFraming s t ∧ sameOutside s t ∧ t.slotPending = s.slotPending ∧ t.qCount = s.qCount ∧ t.wait = none

/-- R124: a CKM frame whose checksum fails changes nothing but `frame_complete`, and DECODE returns INVALID. -/
def Obligations.CkmChecksumFailureRetains : Prop :=
  ∀ (s : State) (m : CkmModel), consumerReady s → s.cfg.proto = .ckm → s.frameComplete = true →
    s.cfg.ckmModels[s.model]? = some m → m.wf = true → m.len ≤ s.cfg.frameCap → ¬ckmChecksumHolds s m →
    exec .decode s = .next (replied { s with frameComplete := false } (.code .invalid))

/-- R121, in all three modes: changing any one byte of a frame whose checksum holds, a byte of the checksum field
among them, makes DECODE return INVALID; changing two bytes before the field by opposite amounts keeps the checksum. -/
def Obligations.CkmSingleByteChangeIsDetected : Prop :=
  ∀ (s : State) (m : CkmModel), consumerReady s → s.cfg.proto = .ckm → s.frameComplete = true →
    s.cfg.ckmModels[s.model]? = some m → m.wf = true → m.len ≤ s.cfg.frameCap → Memory.wf s.mem = true →
    ckmChecksumHolds s m →
    (∀ (j : Nat) (b : Byte), j < m.len → b ≠ s.buf j →
        ∃ t, exec .decode { s with mem := Memory.write s.mem j b } = .next t
          ∧ t.results = s.results ++ [⟨.consumer, .code .invalid⟩] ∧ samePublished s t ∧ t.newPacket = s.newPacket)
      ∧ (∀ (i j : Nat) (b c : Byte), i < m.len - 2 → j < m.len - 2 → i ≠ j →
        b.toNat + c.toNat = (s.buf i).toNat + (s.buf j).toNat →
        ckmChecksumHolds { s with mem := Memory.write (Memory.write s.mem i b) j c } m)

/-- R130, R133, R134: a JOY frame with the right checksum and identity. Sticks are the converter's results on the four
fields, pitch negated; where the converter's result is unspecified nothing is said. Each flag's value lands in its
switch, and the other switches and the channel array keep their values. -/
def Obligations.JoyFrameIsPublished : Prop :=
  ∀ s : State, consumerReady s → s.cfg.wf = true → s.cfg.proto = .joy → s.frameComplete = true →
    25 ≤ s.cfg.frameCap → joyChecksumHolds s → joyIdentityHolds s →
    ∃ t, exec .decode s = .next t ∧ t.results = s.results ++ [⟨.consumer, .code .valid⟩]
      ∧ (∀ v, bitsToFixed s.cfg.fixFracBits (le32 (s.buf 3) (s.buf 4) (s.buf 5) (s.buf 6)) = some v →
          t.stick.yaw = v)
      ∧ (∀ v, bitsToFixed s.cfg.fixFracBits (le32 (s.buf 7) (s.buf 8) (s.buf 9) (s.buf 10)) = some v →
          t.stick.throttle = v)
      ∧ (∀ v, bitsToFixed s.cfg.fixFracBits (le32 (s.buf 11) (s.buf 12) (s.buf 13) (s.buf 14)) = some v →
          t.stick.roll = v)
      ∧ (∀ v, bitsToFixed s.cfg.fixFracBits (le32 (s.buf 15) (s.buf 16) (s.buf 17) (s.buf 18)) = some v →
          t.stick.pitch = -v)
      ∧ (∀ k : Fin 5, getSwitch t.switchBank s.cfg.joySwIdx[k] = joyFlagValue s.cfg k (s.buf (19 + k.val)))
      ∧ (∀ i : Fin 16, (∀ k : Fin 5, s.cfg.joySwIdx[k] ≠ i) →
          getSwitch t.switchBank i = getSwitch s.switchBank i)
      ∧ t.ch = s.ch ∧ t.chCount = s.chCount ∧ t.failsafe = s.failsafe ∧ t.signalLost = s.signalLost
      ∧ t.frameComplete = false ∧ t.newPacket = true
      ∧ sameFraming s t ∧ sameOutside s t ∧ t.slotPending = s.slotPending ∧ t.qCount = s.qCount ∧ t.wait = none

/-- R131, R132, R135: the checksum is tested first, so a frame that fails it is INVALID whatever its identity; one
that passes it with another identity is FOREIGN. Nothing changes but `frame_complete`. -/
def Obligations.JoyBadFrameRetains : Prop :=
  ∀ s : State, consumerReady s → s.cfg.proto = .joy → s.frameComplete = true → 25 ≤ s.cfg.frameCap →
    (¬joyChecksumHolds s →
        exec .decode s = .next (replied { s with frameComplete := false } (.code .invalid)))
      ∧ (joyChecksumHolds s → ¬joyIdentityHolds s →
        exec .decode s = .next (replied { s with frameComplete := false } (.code .foreign)))

/-! ## BITS2FIX -/

/-- R140 to R146, for every operand and every fraction width: exponent 0 gives 0; a shift of 0 or more gives the
mantissa divided by the power of two, rounded toward zero, with the sign; a negative shift gives some value, of which
nothing is said. No other state changes but the model's draw counter in the last case. -/
def Obligations.Bits2fixConverts : Prop :=
  ∀ (x : Word) (s : State) (e f : Nat) (sh : Int), eitherReady s →
    e = x.toNat / 2 ^ 23 % 256 → f = x.toNat % 2 ^ 23 →
    sh = (23 - (s.cfg.fixFracBits : Int)) - ((e : Int) - 127) →
    (e = 0 → exec (.bits2fix x) s = .next (replied s (.fixed 0)))
      ∧ (e ≠ 0 → 0 ≤ sh → ∃ v : Word, exec (.bits2fix x) s = .next (replied s (.fixed v))
        ∧ v.toInt = (if 2 ^ 31 ≤ x.toNat then -1 else 1) * (((2 ^ 23 + f) / 2 ^ sh.toNat : Nat) : Int))
      ∧ (e ≠ 0 → sh < 0 → ∃ v : Word,
        exec (.bits2fix x) s = .next (replied { s with draws := s.draws + 1 } (.fixed v)))

/-- R146 quotes the source's test property: 0.0, 1.0, -1.0 and 0.5 give 0, 2048, -2048 and 1024 with F = 11. -/
def Obligations.Bits2fixOfTheSourcesFloats : Prop :=
  ∀ s : State, eitherReady s → s.cfg.fixFracBits = 11 →
    exec (.bits2fix 0x00000000) s = .next (replied s (.fixed 0))
      ∧ exec (.bits2fix 0x3F800000) s = .next (replied s (.fixed 2048))
      ∧ exec (.bits2fix 0xBF800000) s = .next (replied s (.fixed (-2048)))
      ∧ exec (.bits2fix 0x3F000000) s = .next (replied s (.fixed 1024))

/-! ## Accessors -/

/-- R171: below `ch_count` GET_CH returns the entry; at or beyond it CHANNEL_LOW, so on a JOY instance always. -/
def Obligations.GetChReadsBelowTheCount : Prop :=
  ∀ (i : Byte) (s : State), consumerReady s →
    (∀ h : i.toNat < 18, i.toNat < s.chCount →
        exec (.getCh i) s = .next (replied s (.channel s.ch[i.toNat])))
      ∧ (s.chCount ≤ i.toNat → exec (.getCh i) s = .next (replied s (.channel s.cfg.channelLow)))
      ∧ (BlockInv s → s.cfg.proto = .joy → exec (.getCh i) s = .next (replied s (.channel s.cfg.channelLow)))

/-- R172: GET_STICK returns the stick value of its axis. -/
def Obligations.GetStickReadsTheAxis : Prop :=
  ∀ s : State, consumerReady s →
    exec (.getStick .roll) s = .next (replied s (.stick s.stick.roll))
      ∧ exec (.getStick .pitch) s = .next (replied s (.stick s.stick.pitch))
      ∧ exec (.getStick .throttle) s = .next (replied s (.stick s.stick.throttle))
      ∧ exec (.getStick .yaw) s = .next (replied s (.stick s.stick.yaw))

/-- R173: GET_SW returns bits `2i+1 : 2i` of the bank, as numbers. -/
def Obligations.GetSwReadsTwoBits : Prop :=
  ∀ (i : Fin 16) (s : State), consumerReady s →
    ∃ v, exec (.getSw i) s = .next (replied s (.switch v)) ∧ v.toNat = s.switchBank.toNat / 4 ^ i.val % 4

/-- R70, R174: SET_SW stores the two low bits of `v` in switch `i` and keeps every other switch, as numbers, so the
whole bank is given; nothing else changes. -/
def Obligations.SetSwWritesTwoBits : Prop :=
  ∀ (i : Fin 16) (v : Byte) (s : State), consumerReady s →
    ∃ w : Word, exec (.setSw i v) s = .next { s with switchBank := w }
      ∧ ∀ k : Fin 16, w.toNat / 4 ^ k.val % 4 =
          if k = i then v.toNat % 4 else s.switchBank.toNat / 4 ^ k.val % 4

/-- R175: IS_NEW returns `new_packet` and does not clear it. -/
def Obligations.IsNewReadsTheFlag : Prop :=
  ∀ s : State, consumerReady s → exec .isNew s = .next (replied s (.isNew s.newPacket))

/-- R176: CLR_NEW clears `new_packet` and does nothing else. -/
def Obligations.ClrNewClearsTheFlag : Prop :=
  ∀ s : State, consumerReady s → exec .clrNew s = .next { s with newPacket := false }

/-- R177: GET_LINK returns `signal_lost` in bit 0 and `failsafe` in bit 1; off CH11 the result is 0. -/
def Obligations.GetLinkReadsBothBits : Prop :=
  ∀ s : State, consumerReady s →
    (∃ v : BitVec 2, exec .getLink s = .next (replied s (.link v))
        ∧ v.getLsbD 0 = s.signalLost ∧ v.getLsbD 1 = s.failsafe)
      ∧ (BlockInv s → s.cfg.proto ≠ .ch11 → exec .getLink s = .next (replied s (.link 0)))

/-! ## RESET -/

/-- R217, R30: RESET gives every element its reset value, in one step. Of the elements R30 leaves UNSPECIFIED only
their range is said: `frame_len` in 1 to 255, `model` an index of the table, the buffer inside FRAME_CAP. -/
def Obligations.ResetOperationRestoresTheResetState : Prop :=
  ∀ s : State, environmentReady s → ∃ t, exec .reset s = .next t ∧ resetValues s t

/-- R216: the first operations after RESET, each issued with nothing before it: a byte is examined as a first byte,
DECODE returns NONE, a poll returns 0, IS_NEW and GET_LINK return 0, GET_CH returns CHANNEL_LOW for every index. -/
def Obligations.FirstOperationsAfterReset : Prop :=
  ∀ s t u p : State, exec .reset s = .next t → u = { t with issuer := .consumer } →
    p = { t with issuer := .producer } →
    exec .decode u = .next (replied u (.code .none))
      ∧ exec (.waitSlot 0) u = .next (replied u (.signaled false))
      ∧ exec (.waitQ 0) u = .next (replied u (.signaled false))
      ∧ exec .isNew u = .next (replied u (.isNew false))
      ∧ exec .getLink u = .next (replied u (.link 0))
      ∧ (∀ i, exec (.getCh i) u = .next (replied u (.channel u.cfg.channelLow)))
      ∧ (∀ b, frameSelect p.cfg b = none → exec (.push b) p = .next (replied p (.completed false)))

/-- R30: the elements that R30 gives a value, in the state after reset; nothing is in flight. -/
def Obligations.ResetStateHoldsTheSpecsValues : Prop :=
  State.reset.fsm = .empty ∧ State.reset.widx = 0 ∧ State.reset.frameComplete = false
    ∧ State.reset.newPacket = false ∧ State.reset.failsafe = false ∧ State.reset.signalLost = false
    ∧ State.reset.slotPending = false ∧ State.reset.qCount = 0 ∧ State.reset.chCount = 0
    ∧ State.reset.wait = none ∧ State.reset.results = [] ∧ State.reset.stream = []

/-! ## The whole machine -/

/-- R27, R6: who writes what. Of the operations other than RESET, an element is changed only by those the ownership
table names; the parameters, the issuer and the events to come by none; and each adds at most one result. -/
def Obligations.OnlyTheOwnersWrite : Prop :=
  ∀ (i : Instr) (s t : State), i ≠ .reset → exec i s = .next t →
    (writesFraming i = false → sameFraming s t)
      ∧ (writesFraming i = false → i ≠ .decode → t.frameComplete = s.frameComplete)
      ∧ (writesFraming i = true → s.frameComplete = true → t.frameComplete = true)
      ∧ (i = .decode → t.frameComplete = false)
      ∧ (i ≠ .decode → t.ch = s.ch ∧ t.chCount = s.chCount ∧ t.stick = s.stick ∧ t.failsafe = s.failsafe
          ∧ t.signalLost = s.signalLost)
      ∧ (i ≠ .decode → (∀ k v, i ≠ .setSw k v) → t.switchBank = s.switchBank)
      ∧ (i ≠ .decode → i ≠ .clrNew → t.newPacket = s.newPacket)
      ∧ (writesSlot i = false → t.slotPending = s.slotPending)
      ∧ (writesQueue i = false → t.qCount = s.qCount)
      ∧ (canBlock i = false → t.wait = s.wait)
      ∧ (canDraw i = false → t.draws = s.draws)
      ∧ sameOutside s t
      ∧ ∃ l : List Reply, l.length ≤ 1 ∧ t.results = s.results ++ l

/-- R6: the parameters are constants of the instance; no step changes them. -/
def Obligations.StepKeepsTheParameters : Prop :=
  ∀ s t : State, step s = .next t → t.cfg = s.cfg

/-- R15 and the other rules gathered in `BlockInv`: every step keeps them, from every state that has them. -/
def Obligations.StepKeepsTheInvariant : Prop :=
  ∀ s t : State, BlockInv s → step s = .next t → BlockInv t

/-- The state after reset has the invariant. -/
def Obligations.ResetStateMeetsTheInvariant : Prop := BlockInv State.reset

/-- R193: every operation completes: from every state with the invariant, whatever the buffer holds and whatever class is
reported, an operation that its context may issue answers a next state. A wait that blocks answers the state in which the
consumer is blocked (R156). -/
def Obligations.EveryOperationCompletes : Prop :=
  ∀ (i : Instr) (s : State), BlockInv s → mayRun i s → ∃ t, exec i s = .next t

/-- R193: no step stops with a fault, from every state with the invariant. -/
def Obligations.StepNeverFaults : Prop :=
  ∀ s : State, BlockInv s → ∀ f : Fault, step s ≠ .fault f
end

