-- ==== Sys2Proof/Laws/Encoding.lean ====
section
/-! SUPPORT. The operand forms of the command encoding, each with its inverse (30_encoding.md R74, R75). -/

namespace Sys2Proof

/-- A word is assembled again from its bytes (R7, R74). -/
theorem le32_wordBytes (x : Word) : le32 (byteAt x 0) (byteAt x 1) (byteAt x 2) (byteAt x 3) = x := by
  refine BitVec.eq_of_getLsbD_eq fun j hj => ?_
  simp only [le32, byteAt, BitVec.getLsbD_or, BitVec.getLsbD_shiftLeft, BitVec.getLsbD_setWidth,
    BitVec.getLsbD_extractLsb']
  interval_cases j <;> simp

/-- A word's bytes are those it was assembled from (R7, R74). -/
theorem wordBytes_le32 (a b c d : Byte) : wordBytes (le32 a b c d) = [a, b, c, d] := by
  have h : ∀ (k : Nat) (y : Byte), (∀ j < 8, (le32 a b c d).getLsbD (8 * k + j) = y.getLsbD j) →
      byteAt (le32 a b c d) k = y := by
    intro k y hy
    refine BitVec.eq_of_getLsbD_eq fun j hj => ?_
    rw [byteAt, BitVec.getLsbD_extractLsb', hy j hj]
    simp [hj]
  simp only [wordBytes]
  rw [h 0 a, h 1 b, h 2 c, h 3 d] <;>
  · intro j hj
    simp only [le32, BitVec.getLsbD_or, BitVec.getLsbD_shiftLeft, BitVec.getLsbD_setWidth]
    interval_cases j <;> simp

@[simp] theorem axisOf_axisByte (a : Axis) : axisOf (axisByte a) = .ok a := by
  cases a <;> rfl

theorem axisByte_of_axisOf {b : Byte} {a : Axis} (h : axisOf b = .ok a) : axisByte a = b := by
  unfold axisOf at h
  split at h <;> cases h <;> (apply BitVec.eq_of_toNat_eq; simp_all [axisByte])

@[simp] theorem switchOf_byte (i : Fin 16) : switchOf (BitVec.ofNat 8 i.val) = .ok i := by
  have h : i.val % 256 = i.val := Nat.mod_eq_of_lt (by omega)
  simp [switchOf, h]

theorem byte_of_switchOf {b : Byte} {i : Fin 16} (h : switchOf b = .ok i) : BitVec.ofNat 8 i.val = b := by
  unfold switchOf at h
  split at h
  · cases h; simp
  · cases h

end Sys2Proof
end

