-- ==== Sys2Proof/Laws/State.lean ====
section
/-! SUPPORT. One lemma per field per named update of the state: what the update writes there, or that it leaves the
field alone. -/

namespace Sys2Proof.Machine

variable (s : State)

section
variable (f : Fsm) (w : Nat)
@[simp] theorem frameAt_cfg : (s.frameAt f w).cfg = s.cfg := rfl
@[simp] theorem frameAt_mem : (s.frameAt f w).mem = s.mem := rfl
@[simp] theorem frameAt_widx : (s.frameAt f w).widx = w := rfl
@[simp] theorem frameAt_frameLen : (s.frameAt f w).frameLen = s.frameLen := rfl
@[simp] theorem frameAt_model : (s.frameAt f w).model = s.model := rfl
@[simp] theorem frameAt_fsm : (s.frameAt f w).fsm = f := rfl
@[simp] theorem frameAt_frameComplete : (s.frameAt f w).frameComplete = s.frameComplete := rfl
@[simp] theorem frameAt_newPacket : (s.frameAt f w).newPacket = s.newPacket := rfl
@[simp] theorem frameAt_failsafe : (s.frameAt f w).failsafe = s.failsafe := rfl
@[simp] theorem frameAt_signalLost : (s.frameAt f w).signalLost = s.signalLost := rfl
@[simp] theorem frameAt_ch : (s.frameAt f w).ch = s.ch := rfl
@[simp] theorem frameAt_chCount : (s.frameAt f w).chCount = s.chCount := rfl
@[simp] theorem frameAt_stick : (s.frameAt f w).stick = s.stick := rfl
@[simp] theorem frameAt_slotPending : (s.frameAt f w).slotPending = s.slotPending := rfl
@[simp] theorem frameAt_qCount : (s.frameAt f w).qCount = s.qCount := rfl
@[simp] theorem frameAt_switchBank : (s.frameAt f w).switchBank = s.switchBank := rfl
@[simp] theorem frameAt_wait : (s.frameAt f w).wait = s.wait := rfl
@[simp] theorem frameAt_issuer : (s.frameAt f w).issuer = s.issuer := rfl
@[simp] theorem frameAt_stream : (s.frameAt f w).stream = s.stream := rfl
@[simp] theorem frameAt_results : (s.frameAt f w).results = s.results := rfl
@[simp] theorem frameAt_draws : (s.frameAt f w).draws = s.draws := rfl
@[simp] theorem frameAt_buf (k : Nat) : (s.frameAt f w).buf k = s.buf k := rfl
end

section
variable (n : Nat) (m : Option Nat)
@[simp] theorem latch_cfg : (s.latch n m).cfg = s.cfg := rfl
@[simp] theorem latch_mem : (s.latch n m).mem = s.mem := rfl
@[simp] theorem latch_widx : (s.latch n m).widx = s.widx := rfl
@[simp] theorem latch_frameLen : (s.latch n m).frameLen = n := rfl
@[simp] theorem latch_model : (s.latch n m).model = m.getD s.model := rfl
@[simp] theorem latch_fsm : (s.latch n m).fsm = s.fsm := rfl
@[simp] theorem latch_frameComplete : (s.latch n m).frameComplete = s.frameComplete := rfl
@[simp] theorem latch_newPacket : (s.latch n m).newPacket = s.newPacket := rfl
@[simp] theorem latch_failsafe : (s.latch n m).failsafe = s.failsafe := rfl
@[simp] theorem latch_signalLost : (s.latch n m).signalLost = s.signalLost := rfl
@[simp] theorem latch_ch : (s.latch n m).ch = s.ch := rfl
@[simp] theorem latch_chCount : (s.latch n m).chCount = s.chCount := rfl
@[simp] theorem latch_stick : (s.latch n m).stick = s.stick := rfl
@[simp] theorem latch_slotPending : (s.latch n m).slotPending = s.slotPending := rfl
@[simp] theorem latch_qCount : (s.latch n m).qCount = s.qCount := rfl
@[simp] theorem latch_switchBank : (s.latch n m).switchBank = s.switchBank := rfl
@[simp] theorem latch_wait : (s.latch n m).wait = s.wait := rfl
@[simp] theorem latch_issuer : (s.latch n m).issuer = s.issuer := rfl
@[simp] theorem latch_stream : (s.latch n m).stream = s.stream := rfl
@[simp] theorem latch_results : (s.latch n m).results = s.results := rfl
@[simp] theorem latch_draws : (s.latch n m).draws = s.draws := rfl
@[simp] theorem latch_buf (k : Nat) : (s.latch n m).buf k = s.buf k := rfl
end

section
variable (i : Nat) (b : Byte)
@[simp] theorem store_cfg : (s.store i b).cfg = s.cfg := rfl
@[simp] theorem store_mem : (s.store i b).mem = Memory.write s.mem i b := rfl
@[simp] theorem store_widx : (s.store i b).widx = s.widx := rfl
@[simp] theorem store_frameLen : (s.store i b).frameLen = s.frameLen := rfl
@[simp] theorem store_model : (s.store i b).model = s.model := rfl
@[simp] theorem store_fsm : (s.store i b).fsm = s.fsm := rfl
@[simp] theorem store_frameComplete : (s.store i b).frameComplete = s.frameComplete := rfl
@[simp] theorem store_newPacket : (s.store i b).newPacket = s.newPacket := rfl
@[simp] theorem store_failsafe : (s.store i b).failsafe = s.failsafe := rfl
@[simp] theorem store_signalLost : (s.store i b).signalLost = s.signalLost := rfl
@[simp] theorem store_ch : (s.store i b).ch = s.ch := rfl
@[simp] theorem store_chCount : (s.store i b).chCount = s.chCount := rfl
@[simp] theorem store_stick : (s.store i b).stick = s.stick := rfl
@[simp] theorem store_slotPending : (s.store i b).slotPending = s.slotPending := rfl
@[simp] theorem store_qCount : (s.store i b).qCount = s.qCount := rfl
@[simp] theorem store_switchBank : (s.store i b).switchBank = s.switchBank := rfl
@[simp] theorem store_wait : (s.store i b).wait = s.wait := rfl
@[simp] theorem store_issuer : (s.store i b).issuer = s.issuer := rfl
@[simp] theorem store_stream : (s.store i b).stream = s.stream := rfl
@[simp] theorem store_results : (s.store i b).results = s.results := rfl
@[simp] theorem store_draws : (s.store i b).draws = s.draws := rfl
end

section
variable (i : Nat) (d : List Byte)
@[simp] theorem storeAll_cfg : (s.storeAll i d).cfg = s.cfg := rfl
@[simp] theorem storeAll_mem : (s.storeAll i d).mem = Memory.writeAll s.mem i d := rfl
@[simp] theorem storeAll_widx : (s.storeAll i d).widx = s.widx := rfl
@[simp] theorem storeAll_frameLen : (s.storeAll i d).frameLen = s.frameLen := rfl
@[simp] theorem storeAll_model : (s.storeAll i d).model = s.model := rfl
@[simp] theorem storeAll_fsm : (s.storeAll i d).fsm = s.fsm := rfl
@[simp] theorem storeAll_frameComplete : (s.storeAll i d).frameComplete = s.frameComplete := rfl
@[simp] theorem storeAll_newPacket : (s.storeAll i d).newPacket = s.newPacket := rfl
@[simp] theorem storeAll_failsafe : (s.storeAll i d).failsafe = s.failsafe := rfl
@[simp] theorem storeAll_signalLost : (s.storeAll i d).signalLost = s.signalLost := rfl
@[simp] theorem storeAll_ch : (s.storeAll i d).ch = s.ch := rfl
@[simp] theorem storeAll_chCount : (s.storeAll i d).chCount = s.chCount := rfl
@[simp] theorem storeAll_stick : (s.storeAll i d).stick = s.stick := rfl
@[simp] theorem storeAll_slotPending : (s.storeAll i d).slotPending = s.slotPending := rfl
@[simp] theorem storeAll_qCount : (s.storeAll i d).qCount = s.qCount := rfl
@[simp] theorem storeAll_switchBank : (s.storeAll i d).switchBank = s.switchBank := rfl
@[simp] theorem storeAll_wait : (s.storeAll i d).wait = s.wait := rfl
@[simp] theorem storeAll_issuer : (s.storeAll i d).issuer = s.issuer := rfl
@[simp] theorem storeAll_stream : (s.storeAll i d).stream = s.stream := rfl
@[simp] theorem storeAll_results : (s.storeAll i d).results = s.results := rfl
@[simp] theorem storeAll_draws : (s.storeAll i d).draws = s.draws := rfl
end

section
variable (b : Bool)
@[simp] theorem setSlot_cfg : (s.setSlot b).cfg = s.cfg := rfl
@[simp] theorem setSlot_mem : (s.setSlot b).mem = s.mem := rfl
@[simp] theorem setSlot_widx : (s.setSlot b).widx = s.widx := rfl
@[simp] theorem setSlot_frameLen : (s.setSlot b).frameLen = s.frameLen := rfl
@[simp] theorem setSlot_model : (s.setSlot b).model = s.model := rfl
@[simp] theorem setSlot_fsm : (s.setSlot b).fsm = s.fsm := rfl
@[simp] theorem setSlot_frameComplete : (s.setSlot b).frameComplete = s.frameComplete := rfl
@[simp] theorem setSlot_newPacket : (s.setSlot b).newPacket = s.newPacket := rfl
@[simp] theorem setSlot_failsafe : (s.setSlot b).failsafe = s.failsafe := rfl
@[simp] theorem setSlot_signalLost : (s.setSlot b).signalLost = s.signalLost := rfl
@[simp] theorem setSlot_ch : (s.setSlot b).ch = s.ch := rfl
@[simp] theorem setSlot_chCount : (s.setSlot b).chCount = s.chCount := rfl
@[simp] theorem setSlot_stick : (s.setSlot b).stick = s.stick := rfl
@[simp] theorem setSlot_slotPending : (s.setSlot b).slotPending = b := rfl
@[simp] theorem setSlot_qCount : (s.setSlot b).qCount = s.qCount := rfl
@[simp] theorem setSlot_switchBank : (s.setSlot b).switchBank = s.switchBank := rfl
@[simp] theorem setSlot_wait : (s.setSlot b).wait = s.wait := rfl
@[simp] theorem setSlot_issuer : (s.setSlot b).issuer = s.issuer := rfl
@[simp] theorem setSlot_stream : (s.setSlot b).stream = s.stream := rfl
@[simp] theorem setSlot_results : (s.setSlot b).results = s.results := rfl
@[simp] theorem setSlot_draws : (s.setSlot b).draws = s.draws := rfl
@[simp] theorem setSlot_buf (k : Nat) : (s.setSlot b).buf k = s.buf k := rfl
end

section
variable (n : Nat)
@[simp] theorem setQueue_cfg : (s.setQueue n).cfg = s.cfg := rfl
@[simp] theorem setQueue_mem : (s.setQueue n).mem = s.mem := rfl
@[simp] theorem setQueue_widx : (s.setQueue n).widx = s.widx := rfl
@[simp] theorem setQueue_frameLen : (s.setQueue n).frameLen = s.frameLen := rfl
@[simp] theorem setQueue_model : (s.setQueue n).model = s.model := rfl
@[simp] theorem setQueue_fsm : (s.setQueue n).fsm = s.fsm := rfl
@[simp] theorem setQueue_frameComplete : (s.setQueue n).frameComplete = s.frameComplete := rfl
@[simp] theorem setQueue_newPacket : (s.setQueue n).newPacket = s.newPacket := rfl
@[simp] theorem setQueue_failsafe : (s.setQueue n).failsafe = s.failsafe := rfl
@[simp] theorem setQueue_signalLost : (s.setQueue n).signalLost = s.signalLost := rfl
@[simp] theorem setQueue_ch : (s.setQueue n).ch = s.ch := rfl
@[simp] theorem setQueue_chCount : (s.setQueue n).chCount = s.chCount := rfl
@[simp] theorem setQueue_stick : (s.setQueue n).stick = s.stick := rfl
@[simp] theorem setQueue_slotPending : (s.setQueue n).slotPending = s.slotPending := rfl
@[simp] theorem setQueue_qCount : (s.setQueue n).qCount = n := rfl
@[simp] theorem setQueue_switchBank : (s.setQueue n).switchBank = s.switchBank := rfl
@[simp] theorem setQueue_wait : (s.setQueue n).wait = s.wait := rfl
@[simp] theorem setQueue_issuer : (s.setQueue n).issuer = s.issuer := rfl
@[simp] theorem setQueue_stream : (s.setQueue n).stream = s.stream := rfl
@[simp] theorem setQueue_results : (s.setQueue n).results = s.results := rfl
@[simp] theorem setQueue_draws : (s.setQueue n).draws = s.draws := rfl
@[simp] theorem setQueue_buf (k : Nat) : (s.setQueue n).buf k = s.buf k := rfl
end

section
variable (b : Bool)
@[simp] theorem setComplete_cfg : (s.setComplete b).cfg = s.cfg := rfl
@[simp] theorem setComplete_mem : (s.setComplete b).mem = s.mem := rfl
@[simp] theorem setComplete_widx : (s.setComplete b).widx = s.widx := rfl
@[simp] theorem setComplete_frameLen : (s.setComplete b).frameLen = s.frameLen := rfl
@[simp] theorem setComplete_model : (s.setComplete b).model = s.model := rfl
@[simp] theorem setComplete_fsm : (s.setComplete b).fsm = s.fsm := rfl
@[simp] theorem setComplete_frameComplete : (s.setComplete b).frameComplete = b := rfl
@[simp] theorem setComplete_newPacket : (s.setComplete b).newPacket = s.newPacket := rfl
@[simp] theorem setComplete_failsafe : (s.setComplete b).failsafe = s.failsafe := rfl
@[simp] theorem setComplete_signalLost : (s.setComplete b).signalLost = s.signalLost := rfl
@[simp] theorem setComplete_ch : (s.setComplete b).ch = s.ch := rfl
@[simp] theorem setComplete_chCount : (s.setComplete b).chCount = s.chCount := rfl
@[simp] theorem setComplete_stick : (s.setComplete b).stick = s.stick := rfl
@[simp] theorem setComplete_slotPending : (s.setComplete b).slotPending = s.slotPending := rfl
@[simp] theorem setComplete_qCount : (s.setComplete b).qCount = s.qCount := rfl
@[simp] theorem setComplete_switchBank : (s.setComplete b).switchBank = s.switchBank := rfl
@[simp] theorem setComplete_wait : (s.setComplete b).wait = s.wait := rfl
@[simp] theorem setComplete_issuer : (s.setComplete b).issuer = s.issuer := rfl
@[simp] theorem setComplete_stream : (s.setComplete b).stream = s.stream := rfl
@[simp] theorem setComplete_results : (s.setComplete b).results = s.results := rfl
@[simp] theorem setComplete_draws : (s.setComplete b).draws = s.draws := rfl
@[simp] theorem setComplete_buf (k : Nat) : (s.setComplete b).buf k = s.buf k := rfl
end

section
variable (b : Bool)
@[simp] theorem setNew_cfg : (s.setNew b).cfg = s.cfg := rfl
@[simp] theorem setNew_mem : (s.setNew b).mem = s.mem := rfl
@[simp] theorem setNew_widx : (s.setNew b).widx = s.widx := rfl
@[simp] theorem setNew_frameLen : (s.setNew b).frameLen = s.frameLen := rfl
@[simp] theorem setNew_model : (s.setNew b).model = s.model := rfl
@[simp] theorem setNew_fsm : (s.setNew b).fsm = s.fsm := rfl
@[simp] theorem setNew_frameComplete : (s.setNew b).frameComplete = s.frameComplete := rfl
@[simp] theorem setNew_newPacket : (s.setNew b).newPacket = b := rfl
@[simp] theorem setNew_failsafe : (s.setNew b).failsafe = s.failsafe := rfl
@[simp] theorem setNew_signalLost : (s.setNew b).signalLost = s.signalLost := rfl
@[simp] theorem setNew_ch : (s.setNew b).ch = s.ch := rfl
@[simp] theorem setNew_chCount : (s.setNew b).chCount = s.chCount := rfl
@[simp] theorem setNew_stick : (s.setNew b).stick = s.stick := rfl
@[simp] theorem setNew_slotPending : (s.setNew b).slotPending = s.slotPending := rfl
@[simp] theorem setNew_qCount : (s.setNew b).qCount = s.qCount := rfl
@[simp] theorem setNew_switchBank : (s.setNew b).switchBank = s.switchBank := rfl
@[simp] theorem setNew_wait : (s.setNew b).wait = s.wait := rfl
@[simp] theorem setNew_issuer : (s.setNew b).issuer = s.issuer := rfl
@[simp] theorem setNew_stream : (s.setNew b).stream = s.stream := rfl
@[simp] theorem setNew_results : (s.setNew b).results = s.results := rfl
@[simp] theorem setNew_draws : (s.setNew b).draws = s.draws := rfl
@[simp] theorem setNew_buf (k : Nat) : (s.setNew b).buf k = s.buf k := rfl
end

section
variable (v : Vector Half 18) (n : Nat)
@[simp] theorem setChannels_cfg : (s.setChannels v n).cfg = s.cfg := rfl
@[simp] theorem setChannels_mem : (s.setChannels v n).mem = s.mem := rfl
@[simp] theorem setChannels_widx : (s.setChannels v n).widx = s.widx := rfl
@[simp] theorem setChannels_frameLen : (s.setChannels v n).frameLen = s.frameLen := rfl
@[simp] theorem setChannels_model : (s.setChannels v n).model = s.model := rfl
@[simp] theorem setChannels_fsm : (s.setChannels v n).fsm = s.fsm := rfl
@[simp] theorem setChannels_frameComplete : (s.setChannels v n).frameComplete = s.frameComplete := rfl
@[simp] theorem setChannels_newPacket : (s.setChannels v n).newPacket = s.newPacket := rfl
@[simp] theorem setChannels_failsafe : (s.setChannels v n).failsafe = s.failsafe := rfl
@[simp] theorem setChannels_signalLost : (s.setChannels v n).signalLost = s.signalLost := rfl
@[simp] theorem setChannels_ch : (s.setChannels v n).ch = v := rfl
@[simp] theorem setChannels_chCount : (s.setChannels v n).chCount = n := rfl
@[simp] theorem setChannels_stick : (s.setChannels v n).stick = s.stick := rfl
@[simp] theorem setChannels_slotPending : (s.setChannels v n).slotPending = s.slotPending := rfl
@[simp] theorem setChannels_qCount : (s.setChannels v n).qCount = s.qCount := rfl
@[simp] theorem setChannels_switchBank : (s.setChannels v n).switchBank = s.switchBank := rfl
@[simp] theorem setChannels_wait : (s.setChannels v n).wait = s.wait := rfl
@[simp] theorem setChannels_issuer : (s.setChannels v n).issuer = s.issuer := rfl
@[simp] theorem setChannels_stream : (s.setChannels v n).stream = s.stream := rfl
@[simp] theorem setChannels_results : (s.setChannels v n).results = s.results := rfl
@[simp] theorem setChannels_draws : (s.setChannels v n).draws = s.draws := rfl
@[simp] theorem setChannels_buf (k : Nat) : (s.setChannels v n).buf k = s.buf k := rfl
end

section
variable (l f : Bool)
@[simp] theorem setLink_cfg : (s.setLink l f).cfg = s.cfg := rfl
@[simp] theorem setLink_mem : (s.setLink l f).mem = s.mem := rfl
@[simp] theorem setLink_widx : (s.setLink l f).widx = s.widx := rfl
@[simp] theorem setLink_frameLen : (s.setLink l f).frameLen = s.frameLen := rfl
@[simp] theorem setLink_model : (s.setLink l f).model = s.model := rfl
@[simp] theorem setLink_fsm : (s.setLink l f).fsm = s.fsm := rfl
@[simp] theorem setLink_frameComplete : (s.setLink l f).frameComplete = s.frameComplete := rfl
@[simp] theorem setLink_newPacket : (s.setLink l f).newPacket = s.newPacket := rfl
@[simp] theorem setLink_failsafe : (s.setLink l f).failsafe = f := rfl
@[simp] theorem setLink_signalLost : (s.setLink l f).signalLost = l := rfl
@[simp] theorem setLink_ch : (s.setLink l f).ch = s.ch := rfl
@[simp] theorem setLink_chCount : (s.setLink l f).chCount = s.chCount := rfl
@[simp] theorem setLink_stick : (s.setLink l f).stick = s.stick := rfl
@[simp] theorem setLink_slotPending : (s.setLink l f).slotPending = s.slotPending := rfl
@[simp] theorem setLink_qCount : (s.setLink l f).qCount = s.qCount := rfl
@[simp] theorem setLink_switchBank : (s.setLink l f).switchBank = s.switchBank := rfl
@[simp] theorem setLink_wait : (s.setLink l f).wait = s.wait := rfl
@[simp] theorem setLink_issuer : (s.setLink l f).issuer = s.issuer := rfl
@[simp] theorem setLink_stream : (s.setLink l f).stream = s.stream := rfl
@[simp] theorem setLink_results : (s.setLink l f).results = s.results := rfl
@[simp] theorem setLink_draws : (s.setLink l f).draws = s.draws := rfl
@[simp] theorem setLink_buf (k : Nat) : (s.setLink l f).buf k = s.buf k := rfl
end

section
variable (v : Sticks)
@[simp] theorem setSticks_cfg : (s.setSticks v).cfg = s.cfg := rfl
@[simp] theorem setSticks_mem : (s.setSticks v).mem = s.mem := rfl
@[simp] theorem setSticks_widx : (s.setSticks v).widx = s.widx := rfl
@[simp] theorem setSticks_frameLen : (s.setSticks v).frameLen = s.frameLen := rfl
@[simp] theorem setSticks_model : (s.setSticks v).model = s.model := rfl
@[simp] theorem setSticks_fsm : (s.setSticks v).fsm = s.fsm := rfl
@[simp] theorem setSticks_frameComplete : (s.setSticks v).frameComplete = s.frameComplete := rfl
@[simp] theorem setSticks_newPacket : (s.setSticks v).newPacket = s.newPacket := rfl
@[simp] theorem setSticks_failsafe : (s.setSticks v).failsafe = s.failsafe := rfl
@[simp] theorem setSticks_signalLost : (s.setSticks v).signalLost = s.signalLost := rfl
@[simp] theorem setSticks_ch : (s.setSticks v).ch = s.ch := rfl
@[simp] theorem setSticks_chCount : (s.setSticks v).chCount = s.chCount := rfl
@[simp] theorem setSticks_stick : (s.setSticks v).stick = v := rfl
@[simp] theorem setSticks_slotPending : (s.setSticks v).slotPending = s.slotPending := rfl
@[simp] theorem setSticks_qCount : (s.setSticks v).qCount = s.qCount := rfl
@[simp] theorem setSticks_switchBank : (s.setSticks v).switchBank = s.switchBank := rfl
@[simp] theorem setSticks_wait : (s.setSticks v).wait = s.wait := rfl
@[simp] theorem setSticks_issuer : (s.setSticks v).issuer = s.issuer := rfl
@[simp] theorem setSticks_stream : (s.setSticks v).stream = s.stream := rfl
@[simp] theorem setSticks_results : (s.setSticks v).results = s.results := rfl
@[simp] theorem setSticks_draws : (s.setSticks v).draws = s.draws := rfl
@[simp] theorem setSticks_buf (k : Nat) : (s.setSticks v).buf k = s.buf k := rfl
end

section
variable (w : Word)
@[simp] theorem setSwitches_cfg : (s.setSwitches w).cfg = s.cfg := rfl
@[simp] theorem setSwitches_mem : (s.setSwitches w).mem = s.mem := rfl
@[simp] theorem setSwitches_widx : (s.setSwitches w).widx = s.widx := rfl
@[simp] theorem setSwitches_frameLen : (s.setSwitches w).frameLen = s.frameLen := rfl
@[simp] theorem setSwitches_model : (s.setSwitches w).model = s.model := rfl
@[simp] theorem setSwitches_fsm : (s.setSwitches w).fsm = s.fsm := rfl
@[simp] theorem setSwitches_frameComplete : (s.setSwitches w).frameComplete = s.frameComplete := rfl
@[simp] theorem setSwitches_newPacket : (s.setSwitches w).newPacket = s.newPacket := rfl
@[simp] theorem setSwitches_failsafe : (s.setSwitches w).failsafe = s.failsafe := rfl
@[simp] theorem setSwitches_signalLost : (s.setSwitches w).signalLost = s.signalLost := rfl
@[simp] theorem setSwitches_ch : (s.setSwitches w).ch = s.ch := rfl
@[simp] theorem setSwitches_chCount : (s.setSwitches w).chCount = s.chCount := rfl
@[simp] theorem setSwitches_stick : (s.setSwitches w).stick = s.stick := rfl
@[simp] theorem setSwitches_slotPending : (s.setSwitches w).slotPending = s.slotPending := rfl
@[simp] theorem setSwitches_qCount : (s.setSwitches w).qCount = s.qCount := rfl
@[simp] theorem setSwitches_switchBank : (s.setSwitches w).switchBank = w := rfl
@[simp] theorem setSwitches_wait : (s.setSwitches w).wait = s.wait := rfl
@[simp] theorem setSwitches_issuer : (s.setSwitches w).issuer = s.issuer := rfl
@[simp] theorem setSwitches_stream : (s.setSwitches w).stream = s.stream := rfl
@[simp] theorem setSwitches_results : (s.setSwitches w).results = s.results := rfl
@[simp] theorem setSwitches_draws : (s.setSwitches w).draws = s.draws := rfl
@[simp] theorem setSwitches_buf (k : Nat) : (s.setSwitches w).buf k = s.buf k := rfl
end

section
variable (w : Option Wait)
@[simp] theorem setWait_cfg : (s.setWait w).cfg = s.cfg := rfl
@[simp] theorem setWait_mem : (s.setWait w).mem = s.mem := rfl
@[simp] theorem setWait_widx : (s.setWait w).widx = s.widx := rfl
@[simp] theorem setWait_frameLen : (s.setWait w).frameLen = s.frameLen := rfl
@[simp] theorem setWait_model : (s.setWait w).model = s.model := rfl
@[simp] theorem setWait_fsm : (s.setWait w).fsm = s.fsm := rfl
@[simp] theorem setWait_frameComplete : (s.setWait w).frameComplete = s.frameComplete := rfl
@[simp] theorem setWait_newPacket : (s.setWait w).newPacket = s.newPacket := rfl
@[simp] theorem setWait_failsafe : (s.setWait w).failsafe = s.failsafe := rfl
@[simp] theorem setWait_signalLost : (s.setWait w).signalLost = s.signalLost := rfl
@[simp] theorem setWait_ch : (s.setWait w).ch = s.ch := rfl
@[simp] theorem setWait_chCount : (s.setWait w).chCount = s.chCount := rfl
@[simp] theorem setWait_stick : (s.setWait w).stick = s.stick := rfl
@[simp] theorem setWait_slotPending : (s.setWait w).slotPending = s.slotPending := rfl
@[simp] theorem setWait_qCount : (s.setWait w).qCount = s.qCount := rfl
@[simp] theorem setWait_switchBank : (s.setWait w).switchBank = s.switchBank := rfl
@[simp] theorem setWait_wait : (s.setWait w).wait = w := rfl
@[simp] theorem setWait_issuer : (s.setWait w).issuer = s.issuer := rfl
@[simp] theorem setWait_stream : (s.setWait w).stream = s.stream := rfl
@[simp] theorem setWait_results : (s.setWait w).results = s.results := rfl
@[simp] theorem setWait_draws : (s.setWait w).draws = s.draws := rfl
@[simp] theorem setWait_buf (k : Nat) : (s.setWait w).buf k = s.buf k := rfl
end

section
variable (n : Nat)
@[simp] theorem drawn_cfg : (s.drawn n).cfg = s.cfg := rfl
@[simp] theorem drawn_mem : (s.drawn n).mem = s.mem := rfl
@[simp] theorem drawn_widx : (s.drawn n).widx = s.widx := rfl
@[simp] theorem drawn_frameLen : (s.drawn n).frameLen = s.frameLen := rfl
@[simp] theorem drawn_model : (s.drawn n).model = s.model := rfl
@[simp] theorem drawn_fsm : (s.drawn n).fsm = s.fsm := rfl
@[simp] theorem drawn_frameComplete : (s.drawn n).frameComplete = s.frameComplete := rfl
@[simp] theorem drawn_newPacket : (s.drawn n).newPacket = s.newPacket := rfl
@[simp] theorem drawn_failsafe : (s.drawn n).failsafe = s.failsafe := rfl
@[simp] theorem drawn_signalLost : (s.drawn n).signalLost = s.signalLost := rfl
@[simp] theorem drawn_ch : (s.drawn n).ch = s.ch := rfl
@[simp] theorem drawn_chCount : (s.drawn n).chCount = s.chCount := rfl
@[simp] theorem drawn_stick : (s.drawn n).stick = s.stick := rfl
@[simp] theorem drawn_slotPending : (s.drawn n).slotPending = s.slotPending := rfl
@[simp] theorem drawn_qCount : (s.drawn n).qCount = s.qCount := rfl
@[simp] theorem drawn_switchBank : (s.drawn n).switchBank = s.switchBank := rfl
@[simp] theorem drawn_wait : (s.drawn n).wait = s.wait := rfl
@[simp] theorem drawn_issuer : (s.drawn n).issuer = s.issuer := rfl
@[simp] theorem drawn_stream : (s.drawn n).stream = s.stream := rfl
@[simp] theorem drawn_results : (s.drawn n).results = s.results := rfl
@[simp] theorem drawn_draws : (s.drawn n).draws = s.draws + n := rfl
@[simp] theorem drawn_buf (k : Nat) : (s.drawn n).buf k = s.buf k := rfl
end

section
variable (c : Ctx) (r : List Event)
@[simp] theorem taken_cfg : (s.taken c r).cfg = s.cfg := rfl
@[simp] theorem taken_mem : (s.taken c r).mem = s.mem := rfl
@[simp] theorem taken_widx : (s.taken c r).widx = s.widx := rfl
@[simp] theorem taken_frameLen : (s.taken c r).frameLen = s.frameLen := rfl
@[simp] theorem taken_model : (s.taken c r).model = s.model := rfl
@[simp] theorem taken_fsm : (s.taken c r).fsm = s.fsm := rfl
@[simp] theorem taken_frameComplete : (s.taken c r).frameComplete = s.frameComplete := rfl
@[simp] theorem taken_newPacket : (s.taken c r).newPacket = s.newPacket := rfl
@[simp] theorem taken_failsafe : (s.taken c r).failsafe = s.failsafe := rfl
@[simp] theorem taken_signalLost : (s.taken c r).signalLost = s.signalLost := rfl
@[simp] theorem taken_ch : (s.taken c r).ch = s.ch := rfl
@[simp] theorem taken_chCount : (s.taken c r).chCount = s.chCount := rfl
@[simp] theorem taken_stick : (s.taken c r).stick = s.stick := rfl
@[simp] theorem taken_slotPending : (s.taken c r).slotPending = s.slotPending := rfl
@[simp] theorem taken_qCount : (s.taken c r).qCount = s.qCount := rfl
@[simp] theorem taken_switchBank : (s.taken c r).switchBank = s.switchBank := rfl
@[simp] theorem taken_wait : (s.taken c r).wait = s.wait := rfl
@[simp] theorem taken_issuer : (s.taken c r).issuer = c := rfl
@[simp] theorem taken_stream : (s.taken c r).stream = r := rfl
@[simp] theorem taken_results : (s.taken c r).results = s.results := rfl
@[simp] theorem taken_draws : (s.taken c r).draws = s.draws := rfl
@[simp] theorem taken_buf (k : Nat) : (s.taken c r).buf k = s.buf k := rfl
end

section
variable (c : Ctx) (r : Result)
@[simp] theorem reply_cfg : (s.reply c r).cfg = s.cfg := rfl
@[simp] theorem reply_mem : (s.reply c r).mem = s.mem := rfl
@[simp] theorem reply_widx : (s.reply c r).widx = s.widx := rfl
@[simp] theorem reply_frameLen : (s.reply c r).frameLen = s.frameLen := rfl
@[simp] theorem reply_model : (s.reply c r).model = s.model := rfl
@[simp] theorem reply_fsm : (s.reply c r).fsm = s.fsm := rfl
@[simp] theorem reply_frameComplete : (s.reply c r).frameComplete = s.frameComplete := rfl
@[simp] theorem reply_newPacket : (s.reply c r).newPacket = s.newPacket := rfl
@[simp] theorem reply_failsafe : (s.reply c r).failsafe = s.failsafe := rfl
@[simp] theorem reply_signalLost : (s.reply c r).signalLost = s.signalLost := rfl
@[simp] theorem reply_ch : (s.reply c r).ch = s.ch := rfl
@[simp] theorem reply_chCount : (s.reply c r).chCount = s.chCount := rfl
@[simp] theorem reply_stick : (s.reply c r).stick = s.stick := rfl
@[simp] theorem reply_slotPending : (s.reply c r).slotPending = s.slotPending := rfl
@[simp] theorem reply_qCount : (s.reply c r).qCount = s.qCount := rfl
@[simp] theorem reply_switchBank : (s.reply c r).switchBank = s.switchBank := rfl
@[simp] theorem reply_wait : (s.reply c r).wait = s.wait := rfl
@[simp] theorem reply_issuer : (s.reply c r).issuer = s.issuer := rfl
@[simp] theorem reply_stream : (s.reply c r).stream = s.stream := rfl
@[simp] theorem reply_results : (s.reply c r).results = s.results ++ [⟨c, r⟩] := rfl
@[simp] theorem reply_draws : (s.reply c r).draws = s.draws := rfl
@[simp] theorem reply_buf (k : Nat) : (s.reply c r).buf k = s.buf k := rfl
end

section
variable (n : Nat)
@[simp] theorem complete_cfg : (s.complete n).cfg = s.cfg := rfl
@[simp] theorem complete_mem : (s.complete n).mem = s.mem := rfl
@[simp] theorem complete_widx : (s.complete n).widx = n := rfl
@[simp] theorem complete_frameLen : (s.complete n).frameLen = s.frameLen := rfl
@[simp] theorem complete_model : (s.complete n).model = s.model := rfl
@[simp] theorem complete_fsm : (s.complete n).fsm = .full := rfl
@[simp] theorem complete_frameComplete : (s.complete n).frameComplete = true := rfl
@[simp] theorem complete_newPacket : (s.complete n).newPacket = s.newPacket := rfl
@[simp] theorem complete_failsafe : (s.complete n).failsafe = s.failsafe := rfl
@[simp] theorem complete_signalLost : (s.complete n).signalLost = s.signalLost := rfl
@[simp] theorem complete_ch : (s.complete n).ch = s.ch := rfl
@[simp] theorem complete_chCount : (s.complete n).chCount = s.chCount := rfl
@[simp] theorem complete_stick : (s.complete n).stick = s.stick := rfl
@[simp] theorem complete_slotPending : (s.complete n).slotPending = true := rfl
@[simp] theorem complete_qCount : (s.complete n).qCount = s.qCount := rfl
@[simp] theorem complete_switchBank : (s.complete n).switchBank = s.switchBank := rfl
@[simp] theorem complete_wait : (s.complete n).wait = s.wait := rfl
@[simp] theorem complete_issuer : (s.complete n).issuer = s.issuer := rfl
@[simp] theorem complete_stream : (s.complete n).stream = s.stream := rfl
@[simp] theorem complete_results : (s.complete n).results = s.results := rfl
@[simp] theorem complete_draws : (s.complete n).draws = s.draws := rfl
@[simp] theorem complete_buf (k : Nat) : (s.complete n).buf k = s.buf k := rfl
end

end Sys2Proof.Machine
end

