-- ==== Sys2Proof/Laws/Memory.lean ====
section
/-! SUPPORT. The frame buffer's memory: reading after writing, and that every operation keeps the canonical form and
stays inside the buffer. -/

namespace Sys2Proof.Machine

@[simp] theorem read_list (m : Memory) (a c : Nat) (b : Byte) (h : Memory.read m a = unwritten) :
    Memory.read (Memory.list a b m) c = if c = a then b else Memory.read m c := by
  unfold Memory.list
  split <;> rename_i hb
  · split <;> rename_i hc
    · rw [hc, h, hb]
    · rfl
  · rfl

/-- Below the first listed offset nothing is listed. -/
theorem read_below {m : Memory} {a c : Nat} (h : Memory.risingFrom a m) (hc : c < a) :
    Memory.read m c = unwritten := by
  induction m generalizing a with
  | nil => rfl
  | cons p m ih =>
    obtain ⟨k, x⟩ := p
    simp only [Memory.risingFrom, Bool.and_eq_true, decide_eq_true_eq] at h
    have hne : c ≠ k := by omega
    simpa only [Memory.read, if_neg hne] using ih h.2 (by omega)

theorem risingFrom_mono {m : Memory} {a b : Nat} (h : Memory.risingFrom b m) (hab : a ≤ b) :
    Memory.risingFrom a m := by
  cases m with
  | nil => rfl
  | cons p m =>
    simp only [Memory.risingFrom, Bool.and_eq_true, decide_eq_true_eq] at h ⊢
    exact ⟨by omega, h.2⟩

theorem risingFrom_list {m : Memory} {a k : Nat} (b : Byte) (hk : k ≤ a) (h : Memory.risingFrom (a + 1) m) :
    Memory.risingFrom k (Memory.list a b m) := by
  unfold Memory.list
  split
  · exact risingFrom_mono h (by omega)
  · simp [Memory.risingFrom, hk, h]

/-- What a write does to what is read. -/
theorem read_write {m : Memory} {k : Nat} (h : Memory.risingFrom k m) (a c : Nat) (b : Byte) :
    Memory.read (Memory.write m a b) c = if c = a then b else Memory.read m c := by
  induction m generalizing k with
  | nil => exact read_list [] a c b rfl
  | cons p m ih =>
    obtain ⟨q, x⟩ := p
    simp only [Memory.risingFrom, Bool.and_eq_true, decide_eq_true_eq] at h
    unfold Memory.write
    split
    · have : Memory.risingFrom q ((q, x) :: m) := by simp [Memory.risingFrom, h.2]
      exact read_list _ a c b (read_below this ‹_›)
    · split <;> rename_i hq
      · subst hq
        rw [read_list m a c b (read_below h.2 (by omega))]
        by_cases hc : c = a <;> simp [Memory.read, hc]
      · by_cases hc : c = q
        · subst hc; simp [Memory.read, Ne.symm hq]
        · simp [Memory.read, hc, ih h.2]

theorem risingFrom_write {m : Memory} {k a : Nat} (b : Byte) (h : Memory.risingFrom k m) (hk : k ≤ a) :
    Memory.risingFrom k (Memory.write m a b) := by
  induction m generalizing k with
  | nil => exact risingFrom_list b hk rfl
  | cons p m ih =>
    obtain ⟨q, x⟩ := p
    simp only [Memory.risingFrom, Bool.and_eq_true, decide_eq_true_eq] at h
    unfold Memory.write
    split
    · exact risingFrom_list b hk (by simp [Memory.risingFrom, h.2]; omega)
    · split <;> rename_i hq
      · subst hq; exact risingFrom_list b hk h.2
      · simp only [Memory.risingFrom, Bool.and_eq_true, decide_eq_true_eq]
        exact ⟨h.1, ih h.2 (by omega)⟩

/-- A property of listed entries survives a write that lists an entry with it. -/
theorem all_write {p : Host.Cell → Bool} {m : Memory} {a : Nat} {b : Byte} (h : m.all p)
    (hb : b ≠ unwritten → p (a, b) = true) : (Memory.write m a b).all p := by
  have hl : ∀ m : Memory, m.all p → (Memory.list a b m).all p := by
    intro m hm
    unfold Memory.list
    split
    · exact hm
    · simp only [List.all_cons, Bool.and_eq_true]; exact ⟨hb ‹_›, hm⟩
  induction m with
  | nil => exact hl [] rfl
  | cons q m ih =>
    simp only [List.all_cons, Bool.and_eq_true] at h
    unfold Memory.write
    split
    · exact hl _ (by simp [h])
    · split
      · exact hl _ h.2
      · simp only [List.all_cons, Bool.and_eq_true]; exact ⟨h.1, ih h.2⟩

/-- Writing keeps the canonical form. -/
theorem wf_write {m : Memory} (a : Nat) (b : Byte) (h : Memory.wf m) : Memory.wf (Memory.write m a b) := by
  simp only [Memory.wf, Bool.and_eq_true] at h ⊢
  exact ⟨risingFrom_write b h.1 (Nat.zero_le a), all_write h.2 (by simp)⟩

theorem within_write {m : Memory} {cap a : Nat} (b : Byte) (h : Memory.within m cap) (ha : a < cap) :
    Memory.within (Memory.write m a b) cap :=
  all_write h (by simp [ha])

theorem read_write_wf {m : Memory} (h : Memory.wf m) (a c : Nat) (b : Byte) :
    Memory.read (Memory.write m a b) c = if c = a then b else Memory.read m c := by
  simp only [Memory.wf, Bool.and_eq_true] at h
  exact read_write h.1 a c b

/-- Writing bytes in a row keeps the canonical form. -/
theorem wf_writeAll {m : Memory} (a : Nat) (d : List Byte) (h : Memory.wf m) : Memory.wf (Memory.writeAll m a d) := by
  induction d generalizing m a with
  | nil => exact h
  | cons b d ih => exact ih (a + 1) (wf_write a b h)

theorem within_writeAll {m : Memory} {cap a : Nat} {d : List Byte} (h : Memory.within m cap) (ha : a + d.length ≤ cap) :
    Memory.within (Memory.writeAll m a d) cap := by
  induction d generalizing m a with
  | nil => exact h
  | cons b d ih =>
    simp only [List.length_cons] at ha
    exact ih (within_write b h (by omega)) (by omega)

/-- What writing bytes in a row does to what is read. -/
theorem read_writeAll {m : Memory} (h : Memory.wf m) (a c : Nat) (d : List Byte) :
    Memory.read (Memory.writeAll m a d) c
      = if a ≤ c then (d[c - a]?).getD (Memory.read m c) else Memory.read m c := by
  induction d generalizing m a with
  | nil => simp [Memory.writeAll]
  | cons b d ih =>
    rw [Memory.writeAll, ih (wf_write a b h) (a + 1), read_write_wf h]
    by_cases hlt : a + 1 ≤ c
    · have hne : c ≠ a := by omega
      have hs : c - a = (c - (a + 1)) + 1 := by omega
      rw [if_pos hlt, if_neg hne, if_pos (by omega), hs, List.getElem?_cons_succ]
    · by_cases he : c = a
      · subst he; simp
      · rw [if_neg hlt, if_neg he, if_neg (by omega)]

/-- Equal memories are equal data: in canonical form, a memory is known by what it reads. -/
theorem eq_of_read {m n : Memory} {k : Nat} (hm : Memory.risingFrom k m) (hn : Memory.risingFrom k n)
    (hm' : m.all (fun c => c.2 != unwritten)) (hn' : n.all (fun c => c.2 != unwritten))
    (h : ∀ a, Memory.read m a = Memory.read n a) : m = n := by
  induction m generalizing n k with
  | nil =>
    cases n with
    | nil => rfl
    | cons q n =>
      obtain ⟨c, x⟩ := q
      have := h c
      simp_all [Memory.read]
  | cons p m ih =>
    obtain ⟨c, x⟩ := p
    simp only [List.all_cons, Bool.and_eq_true, bne_iff_ne, Memory.risingFrom, decide_eq_true_eq] at hm hm'
    cases n with
    | nil =>
      have := h c
      simp [Memory.read] at this
      exact absurd this hm'.1
    | cons q n =>
      obtain ⟨d, y⟩ := q
      simp only [List.all_cons, Bool.and_eq_true, bne_iff_ne, Memory.risingFrom, decide_eq_true_eq] at hn hn'
      have hcd : c = d := by
        rcases Nat.lt_trichotomy c d with hlt | heq | hgt
        · have hz : Memory.read ((d, y) :: n) c = unwritten :=
            read_below (a := d) (by simp [Memory.risingFrom, hn.2]) hlt
          have := (h c).trans hz
          exact absurd (by simpa [Memory.read] using this) hm'.1
        · exact heq
        · have hz : Memory.read ((c, x) :: m) d = unwritten :=
            read_below (a := c) (by simp [Memory.risingFrom, hm.2]) hgt
          have := (h d).symm.trans hz
          exact absurd (by simpa [Memory.read] using this) hn'.1
      subst hcd
      have hxy : x = y := by simpa [Memory.read] using h c
      subst hxy
      congr 1
      refine ih (k := c + 1) hm.2 hn.2 hm'.2 hn'.2 (fun a => ?_)
      by_cases ha : a = c
      · subst ha
        rw [read_below hm.2 (by omega), read_below hn.2 (by omega)]
      · simpa [Memory.read, ha] using h a

/-- `buf[i] <- b`, read back (R8). -/
theorem buf_store {s : State} (h : Memory.wf s.mem) (i a : Nat) (b : Byte) :
    (s.store i b).buf a = if a = i then b else s.buf a :=
  read_write_wf h i a b

end Sys2Proof.Machine
end

