-- ==== Sys2Proof/Laws/Operands.lean ====
section
/-! SUPPORT. Operand assembly: what the fields of a frame depend on, and what the switch bank's packing does. -/

namespace Sys2Proof.Machine

/-- Inside the buffer a frame's byte is the buffer's (R40). -/
theorem frameByte_of_lt {s : State} {i : Nat} (h : i < s.cfg.frameCap) : frameByte s i = s.buf i := if_pos h

theorem ch11Flags_of_lt {s : State} (h : 23 < s.cfg.frameCap) : ch11Flags s = s.buf 23 := frameByte_of_lt h

theorem halfAt_of_lt {s : State} {o : Nat} (h : o + 1 < s.cfg.frameCap) :
    halfAt s o = le16 (s.buf o) (s.buf (o + 1)) := by
  rw [halfAt, frameByte_of_lt h, frameByte_of_lt (by omega)]

theorem wordAt_of_lt {s : State} {o : Nat} (h : o + 3 < s.cfg.frameCap) :
    wordAt s o = le32 (s.buf o) (s.buf (o + 1)) (s.buf (o + 2)) (s.buf (o + 3)) := by
  rw [wordAt, frameByte_of_lt h, frameByte_of_lt (by omega), frameByte_of_lt (by omega), frameByte_of_lt (by omega)]

theorem joyFlag_of_lt {s : State} {k : Nat} (h : 19 + k < s.cfg.frameCap) : joyFlag s k = s.buf (19 + k) :=
  frameByte_of_lt h

/-- `expect` is one-to-one in every mode (R65, R121). -/
theorem expected_injective (mode : CsumMode) {a b : Half} (h : expected mode a = expected mode b) : a = b := by
  cases mode with
  | sum => exact h
  | notSum => simp only [expected] at h; bv_omega
  | negSum => simp only [expected] at h; bv_omega

/-- `le16` as a number (R7). -/
theorem le16_toNat (a b : Byte) : (le16 a b).toNat = a.toNat + 256 * b.toNat := by
  have ha := a.isLt
  have hb := b.isLt
  simp only [le16, BitVec.toNat_or, BitVec.toNat_setWidth, BitVec.toNat_shiftLeft, Nat.shiftLeft_eq]
  rw [Nat.mod_eq_of_lt (show a.toNat < 2 ^ 16 by omega), Nat.mod_eq_of_lt (show b.toNat < 2 ^ 16 by omega),
    Nat.mod_eq_of_lt (show b.toNat * 2 ^ 8 < 2 ^ 16 by omega), Nat.or_comm, Nat.mul_comm,
    ← Nat.two_pow_add_eq_or_of_lt ha]
  omega

/-- Bit `j` of a CH11 field is bit `11k + j` of the string of data bytes (R42, R111). -/
theorem ch11Field_bit (s : State) (k j : Nat) (hk : k < 16) :
    ((ch11Field s k).setWidth 16).getLsbD j
      = (decide (j < 11) && (frameByte s (1 + (11 * k + j) / 8)).getLsbD ((11 * k + j) % 8)) := by
  by_cases hj : j < 11
  · simp only [ch11Field, BitVec.getLsbD_setWidth, BitVec.getLsbD_ushiftRight, BitVec.getLsbD_or,
      BitVec.getLsbD_shiftLeft, hj]
    have h0 : ch11Data s ((11 * k + j) / 8) = frameByte s (1 + (11 * k + j) / 8) := by
      simp [ch11Data, show (11 * k + j) / 8 < 22 by omega]
    have hr : (11 * k + j) % 8 < 8 := Nat.mod_lt _ (by norm_num)
    rw [← h0]
    obtain h1 | h1 | h1 : (11 * k + j) / 8 = 11 * k / 8 ∨ (11 * k + j) / 8 = 11 * k / 8 + 1
        ∨ (11 * k + j) / 8 = 11 * k / 8 + 2 := by omega
    · rw [h1, show 11 * k % 8 + j = (11 * k + j) % 8 by omega]
      simp [hr, show j < 16 by omega, show (11 * k + j) % 8 < 16 by omega, show (11 * k + j) % 8 < 24 by omega]
    · rw [h1, show 11 * k % 8 + j = (11 * k + j) % 8 + 8 by omega]
      simp [hr, show j < 16 by omega, show (11 * k + j) % 8 + 8 < 16 by omega,
        show (11 * k + j) % 8 + 8 < 24 by omega, show (11 * k + j) % 8 < 24 by omega]
    · rw [h1, show 11 * k % 8 + j = (11 * k + j) % 8 + 16 by omega]
      simp [hr, show j < 16 by omega, show (11 * k + j) % 8 + 16 < 24 by omega,
        show (11 * k + j) % 8 < 24 by omega]
  · rw [BitVec.getLsbD_setWidth, BitVec.getLsbD_of_ge _ _ (by omega)]
    simp [hj]

theorem bufferSum_succ (s : State) (n : Nat) : bufferSum s (n + 1) = bufferSum s n + (s.buf n).toNat := by
  simp [bufferSum, List.range_succ]

/-- The 16-bit sum as a number (R65). -/
theorem halfSum_toNat (s : State) (n : Nat) (h : n ≤ s.cfg.frameCap) :
    (halfSum s n).toNat = bufferSum s n % 65536 := by
  induction n with
  | zero => rfl
  | succ n ih =>
    rw [bufferSum_succ, halfSum, frameByte_of_lt h]
    simp only [BitVec.toNat_add, ih (by omega), BitVec.toNat_setWidth]
    have := (s.buf n).isLt
    omega

/-- The 8-bit sum as a number (R68). -/
theorem byteSum_toNat (s : State) (n : Nat) (h : n ≤ s.cfg.frameCap) :
    (byteSum s n).toNat = bufferSum s n % 256 := by
  induction n with
  | zero => rfl
  | succ n ih =>
    rw [bufferSum_succ, byteSum, frameByte_of_lt h]
    simp only [BitVec.toNat_add, ih (by omega)]
    omega

theorem bufferSum_store_ge {s : State} (hw : Memory.wf s.mem) {j n : Nat} (hj : n ≤ j) (b : Byte) :
    bufferSum (s.store j b) n = bufferSum s n := by
  unfold bufferSum
  congr 1
  refine List.map_congr_left fun a ha => ?_
  rw [buf_store hw, if_neg (by have := List.mem_range.1 ha; omega)]

/-- The sum after one byte is replaced (R121). -/
theorem bufferSum_store {s : State} (hw : Memory.wf s.mem) {j n : Nat} (hj : j < n) (b : Byte) :
    bufferSum (s.store j b) n + (s.buf j).toNat = bufferSum s n + b.toNat := by
  induction n with
  | zero => omega
  | succ n ih =>
    rw [bufferSum_succ, bufferSum_succ, buf_store hw]
    by_cases h : n = j
    · subst h
      rw [bufferSum_store_ge hw (Nat.le_refl n), if_pos rfl]
      omega
    · have := ih (by omega)
      rw [if_neg h]
      omega

theorem three_bit (k : Nat) : (3#32).getLsbD k = decide (k < 2) := by
  by_cases h : k < 2
  · interval_cases k <;> rfl
  · by_cases h32 : k < 32
    · interval_cases k <;> simp_all
    · rw [BitVec.getLsbD_of_ge (3#32) k (by omega)]; simp [h]

/-- Bit `j` of a switch bank after one switch is written (R70, R174). -/
theorem setSwitch_bit (bank : Word) (i : Fin 16) (v : SwitchValue) (j : Nat) (hj : j < 32) :
    (setSwitch bank i v).getLsbD j = if j / 2 = i.val then v.getLsbD (j % 2) else bank.getLsbD j := by
  simp only [setSwitch, BitVec.getLsbD_or, BitVec.getLsbD_and, BitVec.getLsbD_not, BitVec.getLsbD_shiftLeft,
    BitVec.getLsbD_setWidth, BitVec.ofNat_eq_ofNat, three_bit]
  by_cases h : j / 2 = i.val
  · have h1 : ¬j < 2 * i.val := by omega
    have h2 : j - 2 * i.val = j % 2 := by omega
    have h3 : j % 2 < 2 := by omega
    simp [h, h1, h2, h3, hj, show j % 2 < 32 by omega]
  · by_cases hl : j < 2 * i.val
    · simp [h, hl, hj]
    · have h1 : ¬j - 2 * i.val < 2 := by omega
      simp [h, hl, hj, h1, BitVec.getLsbD_of_ge v (j - 2 * i.val) (by omega)]

/-- Bit `j` of the switch read from a bank (R70, R173). -/
theorem getSwitch_bit (bank : Word) (i : Fin 16) (j : Nat) (hj : j < 2) :
    (getSwitch bank i).getLsbD j = bank.getLsbD (2 * i.val + j) := by
  simp only [getSwitch, BitVec.getLsbD_setWidth, BitVec.getLsbD_and, BitVec.getLsbD_ushiftRight,
    BitVec.ofNat_eq_ofNat, three_bit]
  simp [hj]

/-- The switch written reads back, and every other switch keeps its value (R174). -/
theorem getSwitch_setSwitch (bank : Word) (i k : Fin 16) (v : SwitchValue) :
    getSwitch (setSwitch bank i v) k = if k = i then v else getSwitch bank k := by
  refine BitVec.eq_of_getLsbD_eq fun j hj => ?_
  rw [getSwitch_bit _ _ _ hj, setSwitch_bit _ _ _ _ (by omega), show (2 * k.val + j) / 2 = k.val by omega,
    show (2 * k.val + j) % 2 = j by omega]
  by_cases h : k = i
  · simp [h]
  · rw [if_neg (fun he => h (Fin.ext he)), if_neg h, getSwitch_bit _ _ _ hj]

/-- The checksum test of a CKM frame inside the buffer is the one of R65 on numbers. -/
theorem ckmPasses_iff (s : State) {m : CkmModel} (hm : m.wf = true) (hc : m.len ≤ s.cfg.frameCap) :
    ckmPasses s m = true ↔ ckmChecksumHolds s m := by
  simp only [CkmModel.wf, Bool.and_eq_true, decide_eq_true_eq] at hm
  rw [ckmPasses, beq_iff_eq, ← BitVec.toNat_inj, ckmField, halfAt, le16_toNat, ckmChecksumHolds, ckmSum,
    show m.len - 2 + 1 = m.len - 1 by omega, frameByte_of_lt (by omega), frameByte_of_lt (by omega)]
  have hs := halfSum_toNat s (m.len - 2) (by omega)
  cases s.cfg.csumMode with
  | sum => simp only [expected]; rw [hs]
  | notSum =>
    have : (expected .notSum (halfSum s (m.len - 2))).toNat = 65535 - bufferSum s (m.len - 2) % 65536 := by
      simp [expected, BitVec.toNat_sub, hs]; omega
    rw [this]
  | negSum =>
    have : (expected .negSum (halfSum s (m.len - 2))).toNat
        = (65536 - bufferSum s (m.len - 2) % 65536) % 65536 := by
      simp [expected, hs]
    rw [this]

/-- The checksum test of a JOY frame inside the buffer is the one of R68 on numbers. -/
theorem joyPasses_iff (s : State) (hc : 25 ≤ s.cfg.frameCap) : joyField s = joySum s ↔ joyChecksumHolds s := by
  rw [← BitVec.toNat_inj, joySum, byteSum_toNat s 24 (by omega), joyField, frameByte_of_lt (by omega)]
  rfl

theorem joyIdentity_iff (s : State) (hc : 3 ≤ s.cfg.frameCap) : joyIdentity s = true ↔ joyIdentityHolds s := by
  simp [joyIdentity, joyIdentityHolds, and_assoc, frameByte_of_lt (s := s) (i := 0) (by omega),
    frameByte_of_lt (s := s) (i := 1) (by omega), frameByte_of_lt (s := s) (i := 2) (by omega)]

end Sys2Proof.Machine
end

