-- ==== Sys2Proof/Laws/Ops.lean ====
section
/-! SUPPORT. One lemma per shared operation: what it can do. -/

namespace Sys2Proof.Machine

variable {s t : State}

/-! ## How an operation is admitted and how it ends -/

theorem admitted_next {allowed : Ctx → Bool} {k : Answer} (h : admitted allowed s k = .next t) :
    allowed s.issuer = true ∧ ¬(s.issuer = .consumer ∧ s.wait.isSome) ∧ k = .next t := by
  unfold admitted at h
  split at h
  · split at h
    · cases h
    · exact ⟨‹_›, ‹_›, h⟩
  · cases h

theorem admitted_fault {allowed : Ctx → Bool} {k : Answer} {f : Fault} (h : admitted allowed s k = .fault f) :
    k = .fault f := by
  unfold admitted at h
  split at h
  · split at h
    · cases h
    · exact h
  · cases h

@[simp] theorem admitted_producer (h : producerReady s) (k : Answer) : admitted byProducer s k = k := by
  have : s.issuer = .producer := h
  simp [admitted, byProducer, this]

@[simp] theorem admitted_consumer (h : consumerReady s) (k : Answer) : admitted byConsumer s k = k := by
  simp [admitted, byConsumer, h.1, h.2]

@[simp] theorem admitted_either (h : eitherReady s) (k : Answer) : admitted byEither s k = k := by
  rcases h with h | h
  · have : s.issuer = .producer := h
    simp [admitted, byEither, this]
  · simp [admitted, byEither, h.1, h.2]

@[simp] theorem admitted_environment (h : environmentReady s) (k : Answer) : admitted byEnvironment s k = k := by
  simp [admitted, byEnvironment, h.1]

@[simp] theorem finish_returning (s : State) (r : Result) : finish (returning s r) = s.reply s.issuer r := rfl
@[simp] theorem finish_silent (s : State) : finish (silent s) = s := rfl
@[simp] theorem finish_reporting (s : State) (c : ErrorClass) (r : Result) :
    finish (reporting s c r) = s.reply s.issuer r := rfl
@[simp] theorem returning_state (s : State) (r : Result) : (returning s r).state = s := rfl
@[simp] theorem silent_state (s : State) : (silent s).state = s := rfl
@[simp] theorem reporting_state (s : State) (c : ErrorClass) (r : Result) : (reporting s c r).state = s := rfl

@[simp] theorem finish_consumed (u : Unpacked) :
    finish (consumed u)
      = ((u.2.setComplete false).setNew (u.1 == .valid || u.2.newPacket)).reply u.2.issuer (.code u.1) := rfl

/-- Ending an operation adds at most a result. -/
theorem finish_eq (e : Ended) : ∃ l, finish e = { e.state with results := e.state.results ++ l } := by
  obtain ⟨s, r, c⟩ := e
  cases r with
  | none => exact ⟨[], by simp [finish]⟩
  | some r => exact ⟨_, rfl⟩

/-! ## Framing -/

/-- What the store step can do (R95 to R97). -/
theorem storeStep_cases (b : Byte) (s : State) :
    (s.cfg.frameCap ≤ s.widx ∧ storeStep b s = overflowed s)
    ∨ (s.widx < s.cfg.frameCap ∧ s.widx + 1 = s.frameLen
        ∧ storeStep b s = returning ((s.store s.widx b).complete (s.widx + 1)) (.completed true))
    ∨ (s.widx < s.cfg.frameCap ∧ s.widx + 1 ≠ s.frameLen
        ∧ storeStep b s = returning ((s.store s.widx b).frameAt .filling (s.widx + 1)) (.completed false)) := by
  unfold storeStep
  split
  · exact .inl ⟨‹_›, rfl⟩
  · split
    · exact .inr (.inl ⟨by omega, ‹_›, rfl⟩)
    · exact .inr (.inr ⟨by omega, ‹_›, rfl⟩)

/-- What a byte examined as a first byte can do (R93, R94). -/
theorem firstByte_cases (b : Byte) (s : State) :
    (frameSelect s.cfg b = none ∧ firstByte b s = reporting s .desync (.completed false))
    ∨ ∃ sel, frameSelect s.cfg b = some sel
        ∧ firstByte b s = storeStep b ((s.latch sel.len sel.model).frameAt .filling s.widx) := by
  unfold firstByte
  split
  · exact .inl ⟨‹_›, rfl⟩
  · exact .inr ⟨_, ‹_›, rfl⟩

/-- What LOADF can do (R99). -/
theorem loadFrame_cases (d : List Byte) (s : State) :
    (d.length ≠ s.cfg.joyLen ∧ loadFrame d s = returning s (.completed false))
    ∨ (d.length = s.cfg.joyLen ∧ s.cfg.frameCap < d.length ∧ loadFrame d s = overflowed s)
    ∨ (d.length = s.cfg.joyLen ∧ d.length ≤ s.cfg.frameCap
        ∧ loadFrame d s
          = returning (((s.storeAll 0 d).latch d.length none).complete d.length) (.completed true)) := by
  unfold loadFrame
  split
  · exact .inl ⟨‹_›, rfl⟩
  · split
    · exact .inr (.inl ⟨by simpa using ‹¬d.length ≠ _›, ‹_›, rfl⟩)
    · exact .inr (.inr ⟨by simpa using ‹¬d.length ≠ _›, by omega, rfl⟩)

/-- A selected model is the table's entry at its index, and its length is the entry's (R90). -/
theorem selectModel_some {b : Byte} {j : Nat} {l : List CkmModel} {sel : Selected}
    (h : selectModel b j l = some sel) :
    ∃ k m, sel.model = some (j + k) ∧ l[k]? = some m ∧ sel.len = m.len ∧ m.sync = b := by
  induction l generalizing j with
  | nil => cases h
  | cons m l ih =>
    unfold selectModel at h
    split at h
    · cases h; exact ⟨0, m, rfl, rfl, rfl, ‹_›⟩
    · obtain ⟨k, m', h1, h2, h3, h4⟩ := ih h
      exact ⟨k + 1, m', by rw [h1]; congr 1; omega, h2, h3, h4⟩

/-! ## Handoff -/

/-- How a wait can end (R156). -/
theorem waitEnds_cases (p : Primitive) (x : Bool) (s : State) :
    (holdsPost p s = true ∧ waitEnds p x s = some (returning (takePost p s) (.signaled true)))
    ∨ (holdsPost p s = false ∧ x = true ∧ waitEnds p x s = some (returning s (.signaled false)))
    ∨ (holdsPost p s = false ∧ x = false ∧ waitEnds p x s = none) := by
  unfold waitEnds
  cases holdsPost p s <;> cases x <;> simp

/-- Taking a post changes the primitive's own bit or count only (R204). -/
theorem takePost_eq (p : Primitive) (s : State) :
    takePost p s = { s with slotPending := (takePost p s).slotPending, qCount := (takePost p s).qCount } := by
  cases p <;> rfl

theorem takePost_qCount_le (p : Primitive) (s : State) : (takePost p s).qCount ≤ s.qCount := by
  cases p
  · exact Nat.le_refl _
  · exact Nat.sub_le _ _

/-! ## DECODE -/

/-- On a buffer that has the bytes, a depacketizer draws nothing for them. -/
theorem reading_of_le {n : Nat} (h : n ≤ s.cfg.frameCap) (u : Unpacked) : reading n s u = u := by
  rw [reading, Nat.sub_eq_zero_of_le h]
  rfl

@[simp] theorem reading_fst (n : Nat) (s : State) (u : Unpacked) : (reading n s u).1 = u.1 := rfl
@[simp] theorem reading_snd (n : Nat) (s : State) (u : Unpacked) :
    (reading n s u).2 = u.2.drawn (n - s.cfg.frameCap) := rfl

theorem unpack_ch11 (hp : s.cfg.proto = .ch11) : unpack s = .ok (reading ch11Extent s (decodeCh11 s)) := by
  simp [unpack, hp]

theorem unpack_ckm {m : CkmModel} (hp : s.cfg.proto = .ckm) (hm : s.cfg.ckmModels[s.model]? = some m) :
    unpack s = .ok (reading (ckmExtent m) s (decodeCkm m s)) := by
  simp [unpack, hp, hm]

theorem unpack_joy (hp : s.cfg.proto = .joy) : unpack s = .ok (reading joyExtent s (decodeJoy s)) := by
  simp [unpack, hp]

/-- What DECODE can do with a pending frame (R170): the depacketizer of PROTO. -/
theorem unpack_ok {u : Unpacked} (h : unpack s = .ok u) :
    (s.cfg.proto = .ch11 ∧ u = reading ch11Extent s (decodeCh11 s))
    ∨ (s.cfg.proto = .ckm ∧ ∃ m, s.cfg.ckmModels[s.model]? = some m ∧ u = reading (ckmExtent m) s (decodeCkm m s))
    ∨ (s.cfg.proto = .joy ∧ u = reading joyExtent s (decodeJoy s)) := by
  unfold unpack at h
  split at h
  · cases h; exact .inl ⟨‹_›, rfl⟩
  · split at h
    · cases h; exact .inr (.inl ⟨‹_›, _, ‹_›, rfl⟩)
    · cases h
  · cases h; exact .inr (.inr ⟨‹_›, rfl⟩)

/-- A pending frame is unpacked, whatever the buffer's size (R193). -/
theorem unpack_completes (h : s.cfg.proto = .ckm → s.model < s.cfg.ckmModels.length) : ∃ u, unpack s = .ok u := by
  cases hp : s.cfg.proto with
  | ch11 => exact ⟨_, unpack_ch11 hp⟩
  | ckm => exact ⟨_, unpack_ckm hp (List.getElem?_eq_getElem (h hp))⟩
  | joy => exact ⟨_, unpack_joy hp⟩

/-- What `decode_CKM` can do (R120, R124). -/
theorem decodeCkm_cases (m : CkmModel) (s : State) :
    (ckmPasses s m = true ∧ decodeCkm m s = (.valid,
      ((s.setChannels (Vector.ofFn fun k => ckmChannel s m k) m.nch).setSticks (ckmSticks s m)).drawn 18))
    ∨ (ckmPasses s m = false ∧ decodeCkm m s = (.invalid, s)) := by
  unfold decodeCkm
  cases h : ckmPasses s m <;> simp

/-- What `decode_JOY` can do (R130, R131, R135). -/
theorem decodeJoy_cases (s : State) :
    (joyField s ≠ joySum s ∧ decodeJoy s = (.invalid, s))
    ∨ (joyField s = joySum s ∧ joyIdentity s = true
        ∧ decodeJoy s = (.valid, ((s.setSticks (joySticks s)).setSwitches (joySwitches s)).drawn 4))
    ∨ (joyField s = joySum s ∧ joyIdentity s = false ∧ decodeJoy s = (.foreign, s)) := by
  unfold decodeJoy
  by_cases h : joyField s = joySum s
  · cases hi : joyIdentity s <;> simp [h]
  · simp [h]

/-- What DECODE can do (R170). -/
theorem consumeFrame_next (h : consumeFrame s = .next t) :
    (s.frameComplete = false ∧ t = s.reply s.issuer (.code .none))
    ∨ (s.frameComplete = true ∧ ∃ u, unpack s = .ok u ∧ t = finish (consumed u)) := by
  unfold consumeFrame at h
  split at h
  · split at h
    · cases h; exact .inr ⟨‹_›, _, ‹_›, rfl⟩
    · cases h
  · cases h; exact .inl ⟨Bool.eq_false_iff.2 ‹_›, rfl⟩

/-! ## RESET -/

theorem wf_freeMemory (n k : Nat) : Memory.wf (freeMemory n k) = true := by
  induction k with
  | zero => rfl
  | succ k ih => exact wf_write k _ ih

theorem within_freeMemory (n k cap : Nat) (h : k ≤ cap) : Memory.within (freeMemory n k) cap = true := by
  induction k with
  | zero => rfl
  | succ k ih => exact within_write _ (ih (by omega)) (by omega)

theorem freeFrameLen_range (n : Nat) : 1 ≤ freeFrameLen n ∧ freeFrameLen n ≤ 255 := by
  unfold freeFrameLen
  have := Nat.mod_lt (Config.freeNat n) (y := 255) (by omega)
  omega

/-! ## The ports -/

/-- What a step can do (R48, R156). -/
theorem step_cases (s : State) :
    (s.stream = [] ∧ step s = .next s)
    ∨ (∃ c bytes rest, s.stream = .command c bytes :: rest
        ∧ ((∃ i left, decode bytes = .ok (i, left) ∧ step s = exec i (s.taken c (streamAfter c left rest)))
          ∨ ∃ e, decode bytes = .error e ∧ step s = .refused (refusalOf e)))
    ∨ (∃ rest, s.stream = .expire :: rest ∧ step s = declareExpired (s.taken .environment rest))
    ∨ (∃ rest, s.stream = .resume :: rest ∧ step s = resumeWait (s.taken .consumer rest)) := by
  unfold step takeEvent
  cases h : s.stream with
  | nil => exact .inl ⟨rfl, rfl⟩
  | cons e rest =>
    cases e with
    | command c bytes =>
      refine .inr (.inl ⟨c, bytes, rest, rfl, ?_⟩)
      simp only [runCommand]
      cases hd : decode bytes with
      | error e => exact .inr ⟨e, rfl, rfl⟩
      | ok p => exact .inl ⟨p.1, p.2, rfl, rfl⟩
    | expire => exact .inr (.inr (.inl ⟨rest, rfl, rfl⟩))
    | resume => exact .inr (.inr (.inr ⟨rest, rfl, rfl⟩))

end Sys2Proof.Machine
end

