-- ==== Sys2Proof/Laws/Exec.lean ====
section
/-! SUPPORT. What each operation can do when it gives a next state, said once: the proofs about frames and invariants
cite these instead of unfolding the meanings. -/

namespace Sys2Proof.Machine

/-- The effect of an operation that is admitted (the meanings' bodies, gathered). -/
def Effect (i : Instr) (s t : State) : Prop :=
  match i with
  | .push b => t = finish (pushByte b s)
  | .loadf d => s.cfg.proto = .joy ∧ t = finish (loadFrame d s)
  | .sigSlot => t = s.setSlot true
  | .sigQ => t = postQueue s
  | .waitSlot x => t = waitOn .slot x s
  | .waitQ x => t = waitOn .queue x s
  | .decode => consumeFrame s = .next t
  | .getCh k => t = s.reply s.issuer (.channel (channelAt s k.toNat))
  | .getStick a => t = s.reply s.issuer (.stick (stickAt s.stick a))
  | .getSw k => t = s.reply s.issuer (.switch (getSwitch s.switchBank k))
  | .setSw k v => t = s.setSwitches (setSwitch s.switchBank k (v.setWidth 2))
  | .isNew => t = s.reply s.issuer (.isNew s.newPacket)
  | .clrNew => t = s.setNew false
  | .getLink => t = s.reply s.issuer (.link (linkBits s.signalLost s.failsafe))
  | .bits2fix x => t = finish (convert x s)
  | .reset => s.wait = none ∧ t = resetState s

/-- Whoever gets an answer was allowed to ask, was not blocked, and got the operation's effect (R75, R156). -/
theorem exec_next {i : Instr} {s t : State} (h : exec i s = .next t) :
    mayIssue i s.issuer = true ∧ (s.issuer = .consumer → s.wait = none) ∧ Effect i s t := by
  have free : ∀ {s : State}, ¬(s.issuer = .consumer ∧ s.wait.isSome) → s.issuer = .consumer → s.wait = none := by
    intro s hn hc
    cases hw : s.wait with
    | none => rfl
    | some w => exact absurd ⟨hc, by simp [hw]⟩ hn
  cases i
  case push => obtain ⟨ha, hb, hk⟩ := admitted_next h; cases hk; exact ⟨ha, free hb, rfl⟩
  case loadf =>
    obtain ⟨ha, hb, hk⟩ := admitted_next h
    split at hk
    · cases hk; exact ⟨ha, free hb, ‹_›, rfl⟩
    · cases hk
  case sigSlot => obtain ⟨ha, hb, hk⟩ := admitted_next h; cases hk; exact ⟨ha, free hb, rfl⟩
  case sigQ => obtain ⟨ha, hb, hk⟩ := admitted_next h; cases hk; exact ⟨ha, free hb, rfl⟩
  case waitSlot => obtain ⟨ha, hb, hk⟩ := admitted_next h; cases hk; exact ⟨ha, free hb, rfl⟩
  case waitQ => obtain ⟨ha, hb, hk⟩ := admitted_next h; cases hk; exact ⟨ha, free hb, rfl⟩
  case decode => obtain ⟨ha, hb, hk⟩ := admitted_next h; exact ⟨ha, free hb, hk⟩
  case getCh => obtain ⟨ha, hb, hk⟩ := admitted_next h; cases hk; exact ⟨ha, free hb, rfl⟩
  case getStick => obtain ⟨ha, hb, hk⟩ := admitted_next h; cases hk; exact ⟨ha, free hb, rfl⟩
  case getSw => obtain ⟨ha, hb, hk⟩ := admitted_next h; cases hk; exact ⟨ha, free hb, rfl⟩
  case setSw => obtain ⟨ha, hb, hk⟩ := admitted_next h; cases hk; exact ⟨ha, free hb, rfl⟩
  case isNew => obtain ⟨ha, hb, hk⟩ := admitted_next h; cases hk; exact ⟨ha, free hb, rfl⟩
  case clrNew => obtain ⟨ha, hb, hk⟩ := admitted_next h; cases hk; exact ⟨ha, free hb, rfl⟩
  case getLink => obtain ⟨ha, hb, hk⟩ := admitted_next h; cases hk; exact ⟨ha, free hb, rfl⟩
  case bits2fix => obtain ⟨ha, hb, hk⟩ := admitted_next h; cases hk; exact ⟨ha, free hb, rfl⟩
  case reset =>
    obtain ⟨ha, hb, hk⟩ := admitted_next h
    split at hk
    · cases hk
    · cases hk; exact ⟨ha, free hb, Option.not_isSome_iff_eq_none.1 ‹_›, rfl⟩

/-- What PUSH and LOADF can change (R27): the framing elements, and upwards the two bits a completion sets. -/
structure FramingChange (s t : State) : Prop where
  rest : t =
    { s with
      mem := t.mem, widx := t.widx, frameLen := t.frameLen, model := t.model, fsm := t.fsm
      frameComplete := t.frameComplete, slotPending := t.slotPending, results := t.results }
  complete : s.frameComplete = true → t.frameComplete = true
  slot : s.slotPending = true → t.slotPending = true
  result : ∃ b, t.results = s.results ++ [⟨s.issuer, .completed b⟩]

theorem storeStep_change (b : Byte) (s : State) : FramingChange s (finish (storeStep b s)) := by
  obtain ⟨-, h⟩ | ⟨-, -, h⟩ | ⟨-, -, h⟩ := storeStep_cases b s <;> rw [h]
  · exact ⟨rfl, id, id, _, rfl⟩
  · exact ⟨rfl, fun _ => rfl, fun _ => rfl, _, rfl⟩
  · exact ⟨rfl, id, id, _, rfl⟩

theorem firstByte_change (b : Byte) (s : State) : FramingChange s (finish (firstByte b s)) := by
  obtain ⟨-, h⟩ | ⟨sel, -, h⟩ := firstByte_cases b s <;> rw [h]
  · exact ⟨rfl, id, id, _, rfl⟩
  · obtain ⟨hr, hc, hs, hx⟩ := storeStep_change b ((s.latch sel.len sel.model).frameAt .filling s.widx)
    exact ⟨by rw [hr]; rfl, hc, hs, hx⟩

theorem pushByte_change (b : Byte) (s : State) : FramingChange s (finish (pushByte b s)) := by
  unfold pushByte
  split
  · obtain ⟨hr, hc, hs, hx⟩ := firstByte_change b (s.frameAt .empty 0)
    exact ⟨by rw [hr]; rfl, hc, hs, hx⟩
  · exact firstByte_change b s
  · exact storeStep_change b s

theorem loadFrame_change (d : List Byte) (s : State) : FramingChange s (finish (loadFrame d s)) := by
  obtain ⟨-, h⟩ | ⟨-, -, h⟩ | ⟨-, -, h⟩ := loadFrame_cases d s <;> rw [h]
  · exact ⟨rfl, id, id, _, rfl⟩
  · exact ⟨rfl, id, id, _, rfl⟩
  · exact ⟨rfl, fun _ => rfl, fun _ => rfl, _, rfl⟩

/-- What a wait can change as it is issued (R204): its primitive, and whether the consumer is blocked. -/
theorem waitOn_change (p : Primitive) (x : Word) (s : State) :
    ∃ l w, l.length ≤ 1 ∧ (w = none ∨ w = some ⟨p, false⟩ ∨ w = s.wait)
      ∧ waitOn p x s =
        { s with
          slotPending := (waitOn p x s).slotPending, qCount := (waitOn p x s).qCount, wait := w
          results := s.results ++ l }
      ∧ (waitOn p x s).qCount ≤ s.qCount
      ∧ (p = .slot → (waitOn p x s).qCount = s.qCount)
      ∧ (p = .queue → (waitOn p x s).slotPending = s.slotPending) := by
  unfold waitOn
  obtain ⟨-, h⟩ | ⟨-, -, h⟩ | ⟨-, -, h⟩ := waitEnds_cases p (x == 0) s <;> rw [h]
  · refine ⟨[⟨s.issuer, .signaled true⟩], s.wait, Nat.le_refl 1, .inr (.inr rfl), ?_, takePost_qCount_le p s, ?_, ?_⟩
    · cases p <;> rfl
    · rintro rfl; rfl
    · rintro rfl; rfl
  · exact ⟨[⟨s.issuer, .signaled false⟩], s.wait, Nat.le_refl 1, .inr (.inr rfl), rfl, Nat.le_refl _, fun _ => rfl, fun _ => rfl⟩
  · exact ⟨[], _, Nat.zero_le _, .inr (.inl rfl), by simp [State.setWait], Nat.le_refl _, fun _ => rfl, fun _ => rfl⟩

/-- What a depacketizer can change (R27): the published state and the draw counter; only the latter unless VALID. -/
structure UnpackChange (s : State) (u : Unpacked) : Prop where
  code : u.1 ≠ .none
  rest : u.2 =
    { s with
      ch := u.2.ch, chCount := u.2.chCount, stick := u.2.stick, switchBank := u.2.switchBank
      failsafe := u.2.failsafe, signalLost := u.2.signalLost, draws := u.2.draws }
  retains : u.1 ≠ .valid → u.2 = { s with draws := u.2.draws }

theorem unchanged_unpacked (s : State) {c : Code} (h : c ≠ .none) : UnpackChange s (c, s) :=
  ⟨h, rfl, fun _ => rfl⟩

theorem decodeCh11_change (s : State) : UnpackChange s (decodeCh11 s) := by
  unfold decodeCh11
  generalize (Vector.ofFn fun k => ch11Channel s k) = v
  generalize ch11Sticks s = k
  exact ⟨nofun, rfl, fun h => absurd rfl h⟩

theorem decodeCkm_change (m : CkmModel) (s : State) : UnpackChange s (decodeCkm m s) := by
  obtain ⟨-, e⟩ | ⟨-, e⟩ := decodeCkm_cases m s <;> rw [e]
  · generalize (Vector.ofFn fun k => ckmChannel s m k) = v
    generalize ckmSticks s m = k
    exact ⟨nofun, rfl, fun h => absurd rfl h⟩
  · exact unchanged_unpacked s nofun

theorem decodeJoy_change (s : State) : UnpackChange s (decodeJoy s) := by
  obtain ⟨-, e⟩ | ⟨-, -, e⟩ | ⟨-, -, e⟩ := decodeJoy_cases s <;> rw [e]
  · exact unchanged_unpacked s nofun
  · generalize joySticks s = k
    generalize joySwitches s = w
    exact ⟨nofun, rfl, fun h => absurd rfl h⟩
  · exact unchanged_unpacked s nofun

/-- The bytes the buffer does not have move the draw counter only. -/
theorem reading_change {s : State} {u : Unpacked} (n : Nat) (h : UnpackChange s u) :
    UnpackChange s (reading n s u) := by
  obtain ⟨hc, hr, hk⟩ := h
  refine ⟨hc, ?_, fun hv => ?_⟩
  · rw [reading_snd, hr]
    rfl
  · rw [reading_snd, hk hv]
    rfl

theorem unpack_change {s : State} {u : Unpacked} (h : unpack s = .ok u) : UnpackChange s u := by
  obtain ⟨-, rfl⟩ | ⟨-, m, -, rfl⟩ | ⟨-, rfl⟩ := unpack_ok h
  · exact reading_change _ (decodeCh11_change s)
  · exact reading_change _ (decodeCkm_change m s)
  · exact reading_change _ (decodeJoy_change s)

/-- What DECODE can change (R27, R170). -/
theorem consumeFrame_change {s t : State} (h : consumeFrame s = .next t) :
    t.frameComplete = false ∧ ∃ c, t =
      { s with
        ch := t.ch, chCount := t.chCount, stick := t.stick, switchBank := t.switchBank
        failsafe := t.failsafe, signalLost := t.signalLost, draws := t.draws
        frameComplete := t.frameComplete, newPacket := t.newPacket
        results := s.results ++ [⟨s.issuer, .code c⟩] } := by
  obtain ⟨hf, rfl⟩ | ⟨hf, u, hu, rfl⟩ := consumeFrame_next h
  · exact ⟨hf, .none, rfl⟩
  · obtain ⟨-, hr, -⟩ := unpack_change hu
    refine ⟨rfl, u.1, ?_⟩
    have hi : u.2.issuer = s.issuer := by rw [hr]
    have hl : u.2.results = s.results := by rw [hr]
    simp only [consumed, finish, State.reply, State.setNew, State.setComplete, hi, hl]
    rw [hr]

end Sys2Proof.Machine
end

