-- ==== Sys2Proof/Laws/FixedPoint.lean ====
section
/-! SUPPORT. The fields and the sign of the converter of 44_fixed_point.md, as numbers. -/

namespace Sys2Proof.Machine

/-- The exponent field as a number (R71). -/
theorem exponent_eq (x : Word) : exponent x = x.toNat / 2 ^ 23 % 256 := by
  simp [exponent, BitVec.extractLsb'_toNat, Nat.shiftRight_eq_div_pow]

/-- The mantissa as a number (R142). -/
theorem mantissa_toNat (x : Word) : (mantissa x).toNat = 2 ^ 23 + x.toNat % 2 ^ 23 := by
  simp only [mantissa, BitVec.toNat_or, BitVec.toNat_setWidth, BitVec.extractLsb'_toNat]
  have h := Nat.mod_lt x.toNat (y := 2 ^ 23) (by norm_num)
  have := Nat.two_pow_add_eq_or_of_lt h 1
  simp at this ⊢
  rw [Nat.mod_eq_of_lt (b := 16777216) (by omega)]
  omega

/-- The sign is applied to the magnitude, and 24 bits leave room for it (R145). -/
theorem signed_toInt (x mag : Word) (h : mag.toNat < 2 ^ 24) :
    (signed x mag).toInt = (if 2 ^ 31 ≤ x.toNat then -1 else 1) * (mag.toNat : Int) := by
  have hb : x.getLsbD 31 = decide (2 ^ 31 ≤ x.toNat) := by
    rw [← BitVec.msb_eq_getLsbD_last (x := x), BitVec.msb_eq_decide]
  unfold signed
  rw [hb]
  by_cases hx : 2 ^ 31 ≤ x.toNat
  · simp only [hx, decide_true, if_true, BitVec.toInt_eq_toNat_cond, BitVec.toNat_sub]
    simp
    omega
  · simp only [hx, decide_false, if_false, BitVec.toInt_eq_toNat_cond]
    simp
    omega

end Sys2Proof.Machine
end

