-- ==== Sys2Proof/Laws/PerInstr.lean ====
section
/-! SUPPORT. Statements made instruction by instruction: the encoded length of every command is the one R75 gives. -/

namespace Sys2Proof.Laws.Length

/-- The encoder writes as many bytes as the length column of R75 says. -/
def Statement (i : Instr) : Prop := (encode i).length = commandLength i

theorem push (b : Byte) : Statement (.push b) := rfl
theorem loadf (d : List Byte) : Statement (.loadf d) := by
  simp only [Statement, encode, commandLength, List.length_cons]; omega
theorem sigSlot : Statement .sigSlot := rfl
theorem sigQ : Statement .sigQ := rfl
theorem waitSlot (t : Word) : Statement (.waitSlot t) := rfl
theorem waitQ (t : Word) : Statement (.waitQ t) := rfl
theorem decode : Statement .decode := rfl
theorem getCh (i : Byte) : Statement (.getCh i) := rfl
theorem getStick (a : Axis) : Statement (.getStick a) := rfl
theorem getSw (i : Fin 16) : Statement (.getSw i) := rfl
theorem setSw (i : Fin 16) (v : Byte) : Statement (.setSw i v) := rfl
theorem isNew : Statement .isNew := rfl
theorem clrNew : Statement .clrNew := rfl
theorem getLink : Statement .getLink := rfl
theorem bits2fix (x : Word) : Statement (.bits2fix x) := rfl
theorem reset : Statement .reset := rfl

end Sys2Proof.Laws.Length
end

