-- ==== Sys2Proof/Tests/Slice0.lean ====
section
/-! SUPPORT. Tests of one step each, with results from 95_test_vectors.md; the checks of well-formedness on ill-formed
terms; commands written out from the table of R75; and, for every statement with hypotheses, states and operands that
meet them. -/

namespace Sys2Proof.Tests

open Sys2Proof.Machine

/-! ## Small states -/

/-- The parameters of the vectors, with one protocol. -/
def cfgOf (p : Proto) : Config := { Config.given with proto := p }

/-- A mis-built instance: a buffer shorter than its frames (vectors F14, G6). -/
def short (p : Proto) : Config := { cfgOf p with frameCap := 16 }

/-- Right after reset, an operation issued by a context. -/
def idle (p : Proto) (c : Ctx) : State := { State.reset with cfg := cfgOf p, issuer := c }

/-- In FILLING, with `w` of `n` bytes stored. -/
def filling (p : Proto) (w n : Nat) : State := { idle p .producer with fsm := .filling, widx := w, frameLen := n }

/-- A whole frame pending. -/
def pending (p : Proto) (d : List Byte) : State :=
  { idle p .consumer with
    mem := Memory.writeAll [] 0 d, fsm := .full, widx := d.length, frameLen := d.length
    frameComplete := true, slotPending := true }

/-- The same, the producer about to issue an operation. -/
def completed (p : Proto) (d : List Byte) : State := { pending p d with issuer := .producer }

/-- The consumer blocked in a wait, with one event presented. -/
def blocked (q : Primitive) (x : Bool) (e : Event) : State :=
  { idle .joy .producer with wait := some ⟨q, x⟩, stream := [e] }

/-- The operation gives a next state, and it is so. -/
def leaves (a : Answer) (p : State → Bool) : Bool :=
  match a with
  | .next t => p t
  | .fault _ => false
  | .refused _ => false

/-- The last result handed out. -/
def answered (t : State) : Option Result := t.results.getLast?.map Reply.result

/-- Frame A of section 3.1. -/
def frameA : List Byte :=
  [0x0F, 0x00, 0x0C, 0xC0, 0xFF, 0x01, 0x50, 0x55, 0x55, 0xB1, 0x62, 0xE2, 0xE0]
    ++ [0x43, 0x1F, 0x77, 0xA1, 0x7F, 0x00, 0x00, 0xFE, 0xCF, 0xFF, 0x09, 0x00]

/-- Vector K1 of section 3.2, with the byte at offset 10 and the checksum field left open. -/
def frameK (b lo hi : Byte) : List Byte :=
  [0x20, 0x40, 0xDB, 0x05, 0xDC, 0x05, 0x54, 0x05, 0xDC, 0x05, b, 0x03, 0xD0, 0x07, 0xD2, 0x05]
    ++ [0xE8, 0x03, 0xDC, 0x05, 0xDC, 0x05, 0xDC, 0x05, 0xDC, 0x05, 0xDC, 0x05, 0xDC, 0x05, lo, hi]

/-- Vector JA of section 3.3, with the last identity byte and the checksum left open. -/
def frameJ (i c : Byte) : List Byte :=
  [0xA1, 0xB2, i, 0x00, 0x00, 0x00, 0x3F, 0x00, 0x00, 0x80, 0x3F, 0x00, 0x00, 0x80, 0xBF]
    ++ [0x00, 0x00, 0x80, 0x3E, 0x01, 0x00, 0x01, 0x05, 0x00, c, 0x00]

/-! ## Well-formedness refuses -/

/-- LOADF's length byte cannot say 256. -/
theorem test_wf_loadf_256 : (Instr.loadf (List.replicate 256 0)).wf = false := by
  rw [Instr.wf, List.length_replicate]; rfl

theorem test_wf_loadf_255 : (Instr.loadf (List.replicate 255 0)).wf = true := by
  rw [Instr.wf, List.length_replicate]; rfl

theorem test_wf_given : ∀ p, (cfgOf p).wf = true ∧ (short p).wf = true := by
  intro p; cases p <;> decide

theorem test_wf_no_buffer : ({ Config.given with frameCap := 0 } : Config).wf = false := by decide
theorem test_wf_wide_buffer : ({ Config.given with frameCap := 256 } : Config).wf = false := by decide
theorem test_wf_sentinels : ({ Config.given with channelHigh := 1000 } : Config).wf = false := by decide
theorem test_wf_no_model : ({ Config.given with ckmModels := [] } : Config).wf = false := by decide
theorem test_wf_same_sync :
    ({ Config.given with ckmModels := [⟨0x20, 32, 2, 14⟩, ⟨0x20, 10, 1, 2⟩] } : Config).wf = false := by decide
theorem test_wf_joy_len : ({ Config.given with joyLen := 24 } : Config).wf = false := by decide
theorem test_wf_switches : ({ Config.given with joySwIdx := #v[0, 1, 2, 3, 0] } : Config).wf = false := by decide
theorem test_wf_queue : ({ Config.given with qDepth := 0 } : Config).wf = false := by decide
theorem test_wf_model_overlap : CkmModel.wf ⟨0x20, 32, 2, 15⟩ = false := by decide
theorem test_wf_model_channels : CkmModel.wf ⟨0x20, 60, 2, 19⟩ = false := by decide
theorem test_wf_model_length : CkmModel.wf ⟨0x20, 256, 2, 14⟩ = false := by decide

/-! ## Decoding: words written out from R75 and the programs of section 4 -/

theorem test_decode_push : decode [0b00000001, 0b00001111] = .ok (.push 0x0F, []) := by decide
theorem test_decode_loadf : decode [0x02, 0x02, 0xA1, 0xB2, 0x12] = .ok (.loadf [0xA1, 0xB2], [0x12]) := by decide
theorem test_decode_sigSlot : decode [0x03, 0x04] = .ok (.sigSlot, [0x04]) := by decide
theorem test_decode_sigQ : decode [0x04] = .ok (.sigQ, []) := by decide
theorem test_decode_waitSlot : decode [0x10, 0x64, 0x00, 0x00, 0x00] = .ok (.waitSlot 100, []) := by decide
theorem test_decode_waitQ : decode [0x11, 0x78, 0x56, 0x34, 0x12] = .ok (.waitQ 0x12345678, []) := by decide
theorem test_decode_decode : decode [0b00010010] = .ok (.decode, []) := by decide
theorem test_decode_getCh : decode [0x13, 0xFF] = .ok (.getCh 255, []) := by decide
theorem test_decode_getStick : decode [0x14, 0x00, 0x14, 0x03] = .ok (.getStick .roll, [0x14, 0x03])
    ∧ decode [0x14, 0x01] = .ok (.getStick .pitch, []) ∧ decode [0x14, 0x02] = .ok (.getStick .throttle, [])
    ∧ decode [0x14, 0x03] = .ok (.getStick .yaw, []) := by decide
theorem test_decode_getSw : decode [0x15, 0x0F] = .ok (.getSw 15, []) := by decide
theorem test_decode_setSw : decode [0x16, 0x05, 0x02] = .ok (.setSw 5 2, []) := by decide
theorem test_decode_isNew : decode [0x17] = .ok (.isNew, []) := by decide
theorem test_decode_clrNew : decode [0x18] = .ok (.clrNew, []) := by decide
theorem test_decode_getLink : decode [0x19] = .ok (.getLink, []) := by decide
theorem test_decode_bits2fix : decode [0x20, 0xFF, 0xFF, 0xFF, 0x39] = .ok (.bits2fix 0x39FFFFFF, []) := by decide
theorem test_decode_reset : decode [0b01111111] = .ok (.reset, []) := by decide

/-- R77: what is no command. -/
theorem test_decode_rejects : decode [0x05] = .error (.reservedOpcode 0x05) ∧ decode [0x14, 4] = .error (.illegalAxis 4)
    ∧ decode [0x15, 16] = .error (.illegalSwitch 16) ∧ decode [0x16, 16, 0] = .error (.illegalSwitch 16)
    ∧ decode [] = .error .truncated ∧ decode [0x10, 0, 0, 0] = .error .truncated
    ∧ decode [0x02, 2, 0] = .error .truncated := by decide

/-- The table numbers the bits from the first byte's. -/
theorem test_decodeTableWord : decodeTableWord 24 0x020516 = some (.setSw 5 2)
    ∧ decodeTableWord 8 0x02 = some (.loadf []) ∧ decodeTableWord 8 0x05 = none := by decide

/-! ## Framing -/

/-- Vector F6. -/
theorem test_push_leaves_full : leaves (exec (.push 0x77) (completed .ch11 frameA)) (fun t =>
    t.fsm == .empty && t.widx == 0 && t.frameLen == 25 && t.frameComplete && t.slotPending
      && t.mem == (completed .ch11 frameA).mem && answered t == some (.completed false)) = true := by decide

/-- Vectors F5 and F14. -/
theorem test_push_completes_or_overflows : leaves (exec (.push 0x09) (filling .ch11 24 25)) (fun t =>
      t.fsm == .full && t.widx == 25 && t.frameComplete && t.slotPending && t.mem == [(24, 0x09)]
        && answered t == some (.completed true)) = true
    ∧ leaves (exec (.push 0x05) { filling .ckm 16 32 with cfg := short .ckm }) (fun t =>
      t.fsm == .empty && t.widx == 0 && t.frameLen == 32 && !t.frameComplete && t.mem == []
        && answered t == some (.completed false)) = true := by decide

/-- Vector G2. -/
theorem test_loadf_discards_the_part_frame : leaves (exec (.loadf (frameJ 0xC3 0x18)) (filling .joy 7 26)) (fun t =>
    t.fsm == .full && t.widx == 26 && t.frameComplete && t.slotPending && t.buf 0 == 0xA1 && t.buf 24 == 0x18
      && answered t == some (.completed true)) = true := by decide

/-- Vectors G5 and G7. -/
theorem test_loadf_wrong_size_or_protocol :
    leaves (exec (.loadf []) (filling .joy 7 26)) (fun t => t.fsm == .filling && t.widx == 7
      && answered t == some (.completed false)) = true
    ∧ exec (.loadf (frameJ 0xC3 0x18)) (idle .ch11 .producer) = .refused .wrongProtocol :=
  ⟨by decide, rfl⟩

/-! ## Handoff -/

/-- Vector H2, its second post. -/
theorem test_sigSlot : leaves (exec .sigSlot (completed .ch11 frameA)) (fun t =>
    t == completed .ch11 frameA) = true := by decide

/-- Vector H7, its third post. -/
theorem test_sigQ_drops : leaves (exec .sigQ { idle .joy .producer with qCount := 2 }) (fun t =>
    t.qCount == 2) = true := by decide

/-- Vector H6. -/
theorem test_waitSlot_takes : leaves (exec (.waitSlot 4294967295) (pending .ch11 frameA)) (fun t =>
    !t.slotPending && t.frameComplete && t.wait == none && answered t == some (.signaled true)) = true := by decide

/-- Vectors H5 and H4: the wait of H3, once it is blocked. -/
theorem test_waitSlot_released : leaves (step { blocked .slot true .resume with slotPending := true }) (fun t =>
      !t.slotPending && t.wait == none && answered t == some (.signaled true)) = true
    ∧ leaves (step (blocked .slot true .resume)) (fun t =>
      t.wait == none && answered t == some (.signaled false)) = true := by decide

/-- Vector H9. -/
theorem test_waitQ_independent : leaves (exec (.waitQ 0) (pending .ch11 frameA)) (fun t =>
    t.slotPending && t.qCount == 0 && answered t == some (.signaled false)) = true := by decide

/-- Vector H8, its first wait; and a wait that blocks. -/
theorem test_waitQ_takes_or_blocks :
    leaves (exec (.waitQ 0) { idle .joy .consumer with qCount := 2 }) (fun t =>
      t.qCount == 1 && answered t == some (.signaled true)) = true
    ∧ leaves (exec (.waitQ 50) (idle .joy .consumer)) (fun t =>
      t.wait == some ⟨.queue, false⟩ && answered t == none) = true := by decide

/-! ## DECODE -/

/-- Frame A of section 3.1: every field, the two boolean channels and the link bits. -/
theorem test_decode_frame_a :
    (List.range 16).map (fun k => (ch11Field (pending .ch11 frameA) k).toNat)
        = [1024, 1, 2047, 0, 1365, 682, 172, 1811, 992, 1000, 1500, 2000, 7, 1024, 1023, 2046]
    ∧ leaves (exec .decode (pending .ch11 frameA)) (fun t =>
      t.ch[2] == 2047 && t.ch[16] == 2000 && t.ch[17] == 1000 && t.chCount == 18 && !t.signalLost && t.failsafe
        && t.newPacket && !t.frameComplete && t.fsm == .full && t.slotPending
        && answered t == some (.code .valid)) = true := by decide

/-- Vectors K1, K1x, the checksum fields of K1n and K1t, JA, JB, JC and JD. -/
theorem test_decode_ckm_joy :
    leaves (exec .decode (pending .ckm (frameK 0xE8 0x25 0x0C))) (fun t =>
      t.ch[0] == 1499 && t.ch[2] == 1364 && t.ch[13] == 1500 && t.chCount == 14
        && answered t == some (.code .valid)) = true
    ∧ leaves (exec .decode (pending .ckm (frameK 0xE9 0x25 0x0C))) (fun t =>
      t.chCount == 0 && !t.frameComplete && !t.newPacket && answered t == some (.code .invalid)) = true
    ∧ expected .notSum 0x0C25 = 0xF3DA ∧ expected .negSum 0x0C25 = 0xF3DB
    ∧ leaves (exec .decode (pending .joy (frameJ 0xC3 0x18))) (fun t =>
      t.stick == ⟨-2048, -512, 2048, 1024⟩ && t.switchBank == 0x51 && t.newPacket
        && answered t == some (.code .valid)) = true
    ∧ leaves (exec .decode (pending .joy (frameJ 0xC3 0x19))) (fun t =>
      answered t == some (.code .invalid)) = true
    ∧ leaves (exec .decode (pending .joy (frameJ 0xC4 0x19))) (fun t =>
      answered t == some (.code .foreign) && !t.frameComplete && !t.newPacket) = true
    ∧ leaves (exec .decode (pending .joy (frameJ 0xC4 0x1C))) (fun t =>
      answered t == some (.code .invalid)) = true := by decide

/-! ## Accessors -/

/-- Vectors S8 and S10. -/
theorem test_getCh : leaves (exec (.getCh 17) (idle .ch11 .consumer)) (fun t =>
      answered t == some (.channel 1000)) = true
    ∧ leaves (exec (.getCh 16) { idle .ch11 .consumer with ch := Vector.replicate 18 2000, chCount := 18 }) (fun t =>
      answered t == some (.channel 2000)) = true
    ∧ leaves (exec (.getCh 18) { idle .ch11 .consumer with ch := Vector.replicate 18 2000, chCount := 18 }) (fun t =>
      answered t == some (.channel 1000)) = true := by decide

theorem test_getStick : leaves (exec (.getStick .throttle) { idle .joy .consumer with stick := ⟨1, 2, 3, 4⟩ }) (fun t =>
    answered t == some (.stick 3)) = true := by decide

/-- Vector S6, switches 1 and 15. -/
theorem test_getSw : leaves (exec (.getSw 1) { idle .joy .consumer with switchBank := 0x12345678 }) (fun t =>
      answered t == some (.switch 2)) = true
    ∧ leaves (exec (.getSw 15) { idle .joy .consumer with switchBank := 0x12345678 }) (fun t =>
      answered t == some (.switch 0)) = true := by decide

/-- Vectors S3 and S5. -/
theorem test_setSw : leaves (exec (.setSw 3 0) { idle .joy .consumer with switchBank := 0xFFFFFFFF }) (fun t =>
      t.switchBank == 0xFFFFFF3F && answered t == none) = true
    ∧ leaves (exec (.setSw 2 6) (idle .joy .consumer)) (fun t => t.switchBank == 0x20) = true := by decide

/-- Vector S12. -/
theorem test_isNew : leaves (exec .isNew { idle .joy .consumer with newPacket := true }) (fun t =>
    t.newPacket && answered t == some (.isNew true)) = true := by decide

theorem test_clrNew : leaves (exec .clrNew { idle .joy .consumer with newPacket := true }) (fun t =>
    !t.newPacket && answered t == none) = true := by decide

/-- Vectors S13 and S14. -/
theorem test_getLink : leaves (exec .getLink { idle .ch11 .consumer with signalLost := true }) (fun t =>
      answered t == some (.link 1)) = true
    ∧ leaves (exec .getLink { idle .ch11 .consumer with failsafe := true }) (fun t =>
      answered t == some (.link 2)) = true := by decide

/-! ## BITS2FIX and RESET -/

/-- Vectors X2, X3, X7, X9, X11, X12, X15, X20, X23, X33, X35 and, with no value, X36 and X41. -/
theorem test_bits2fix_vectors : bitsToFixed 11 0x80000000 = some 0 ∧ bitsToFixed 11 0x007FFFFF = some 0
    ∧ bitsToFixed 11 0x33800000 = some 0 ∧ bitsToFixed 11 0x39800000 = some 0 ∧ bitsToFixed 11 0xB9800000 = some 0
    ∧ bitsToFixed 11 0x3A000000 = some 1 ∧ bitsToFixed 11 0xBA7FFFFF = some (-1)
    ∧ bitsToFixed 11 0x3F7FBE77 = some 2045 ∧ bitsToFixed 11 0x3F800000 = some 2048
    ∧ bitsToFixed 11 0x45FFF800 = some 16775168 ∧ bitsToFixed 11 0xC5FFFFFF = some (-16777215)
    ∧ bitsToFixed 11 0x46000000 = none ∧ bitsToFixed 11 0x7FC00000 = none := by decide

/-- X19, issued by the producer; X36 runs on. -/
theorem test_bits2fix_runs : leaves (exec (.bits2fix 0xBF000000) (idle .ch11 .producer)) (fun t =>
      answered t == some (.fixed (-1024))) = true
    ∧ leaves (exec (.bits2fix 0x46000000) (idle .ch11 .consumer)) (fun t => t.draws == 1) = true := by decide

theorem test_reset : leaves (exec .reset { filling .ch11 7 25 with issuer := .environment, qCount := 2 }) (fun t =>
    t.fsm == .empty && t.widx == 0 && t.qCount == 0 && !t.frameComplete && t.results == []) = true := by decide

/-! ## Witnesses: for every statement with hypotheses, what meets them all -/

/-- The invariant holds in a state of the kinds used here: no channel decoded yet. -/
theorem inv_of (s : State) (h : (s.cfg.wf && Memory.wf s.mem && Memory.within s.mem s.cfg.frameCap) = true)
    (hf : FramingInv s) (hr : 1 ≤ s.frameLen ∧ s.frameLen ≤ 255
      ∧ (s.cfg.proto = .ckm → s.model < s.cfg.ckmModels.length)
      ∧ (s.fsm ≠ .empty → declaredLength s = some s.frameLen)
      ∧ (s.cfg.proto ≠ .ckm → s.frameComplete = true → 25 ≤ s.cfg.frameCap)
      ∧ s.chCount = 0 ∧ s.failsafe = false ∧ s.signalLost = false ∧ s.qCount ≤ s.cfg.qDepth) : BlockInv s := by
  simp only [Bool.and_eq_true] at h
  obtain ⟨h1, h2, h3, h4, h5, h6, h7, h8, h9⟩ := hr
  refine ⟨h.1.1, h.1.2, h.2, hf, ⟨h1, h2⟩, h3, h4, h5, ?_, fun _ => ⟨h7, h8⟩, h9⟩
  unfold ChannelInv
  split
  · exact .inl h6
  · exact .inl h6
  · exact h6

theorem test_inv_idle : ∀ p c, BlockInv (idle p c) := by
  intro p c
  refine inv_of _ ?_ rfl ?_ <;> cases p <;> cases c <;> decide

/-- One byte before the end, and one byte in. -/
theorem test_inv_filling : BlockInv (filling .ch11 24 25) ∧ BlockInv (filling .joy 1 26)
    ∧ BlockInv { filling .ckm 16 32 with cfg := short .ckm } :=
  ⟨inv_of _ (by decide) ⟨by decide, by decide, by decide⟩ (by decide),
    inv_of _ (by decide) ⟨by decide, by decide, by decide⟩ (by decide),
    inv_of _ (by decide) ⟨by decide, by decide, by decide⟩ (by decide)⟩

theorem test_inv_completed : BlockInv (completed .ch11 frameA) ∧ BlockInv (completed .joy (frameJ 0xC3 0x18)) :=
  ⟨inv_of _ (by decide) ⟨by decide, by decide, by decide⟩ (by decide),
    inv_of _ (by decide) ⟨by decide, by decide, by decide⟩ (by decide)⟩

/-- For DecodeOfEncodeIsTheCommand: the longest LOADF, and every axis and switch at its bound. -/
theorem test_witness_wf : (Instr.loadf (List.replicate 255 0)).wf = true ∧ (Instr.getStick .yaw).wf = true
    ∧ (Instr.setSw 15 255).wf = true ∧ (Instr.waitQ 0xFFFFFFFF).wf = true :=
  ⟨test_wf_loadf_255, rfl, rfl, rfl⟩

/-- For DecodedBytesAreTheEncoding: the shortest LOADF. -/
theorem test_witness_decoded : decode [0x02, 0x00, 0x17] = .ok (.loadf [], [0x17]) := by decide

/-- For IllegalCommandsAreRefused, clause by clause, at the bounds. -/
theorem test_witness_illegal : (0x00 : Byte) ∉ opcodes ∧ (0x05 : Byte) ∉ opcodes ∧ (0x1A : Byte) ∉ opcodes
    ∧ (0x80 : Byte) ∉ opcodes ∧ 3 < (4 : Byte).toNat ∧ 15 < (16 : Byte).toNat
    ∧ (producerReady (idle .ch11 .producer) ∧ (idle .ch11 .producer).cfg.proto ≠ .joy)
    ∧ mayIssue .decode (idle .joy .producer).issuer = false
    ∧ mayIssue (.bits2fix 0) (idle .joy .environment).issuer = false :=
  ⟨by decide, by decide, by decide, by decide, by decide, by decide, ⟨rfl, by decide⟩, rfl, rfl⟩

/-- For StepRunsTheDecodedCommand, with bytes left over, and StepWaitsWhenNothingIsPresented. -/
theorem test_witness_step :
    ({ idle .joy .producer with stream := [.command .consumer [0x17, 0x18], .resume] } : State).stream
        = .command .consumer [0x17, 0x18] :: [.resume]
    ∧ decode [0x17, 0x18] = .ok (.isNew, [0x18]) ∧ State.reset.stream = [] :=
  ⟨rfl, by decide, rfl⟩

/-- An instance on which a frame of one byte could be declared (R102). -/
def oneByteModel : State :=
  { idle .ckm .producer with cfg := { cfgOf .ckm with ckmModels := [⟨0x21, 1, 0, 0⟩] } }

/-- For PushFollowsTheTransitionTable, row by row: vectors F1, F2, a frame of one byte, F14, F15, F11, F6, G5, G6, G2,
RESET, and an operation that leaves the two alone. -/
theorem test_witness_transitions :
    (producerReady (idle .ch11 .producer) ∧ (idle .ch11 .producer).fsm = .empty ∧ (idle .ch11 .producer).widx = 0
        ∧ frameSelect (cfgOf .ch11) 0x5A = none)
    ∧ (frameSelect (cfgOf .ch11) 0x0F = some ⟨25, none⟩ ∧ 1 ≤ (cfgOf .ch11).frameCap)
    ∧ (producerReady oneByteModel ∧ oneByteModel.fsm = .empty ∧ oneByteModel.widx = 0
        ∧ frameSelect oneByteModel.cfg 0x21 = some ⟨1, some 0⟩)
    ∧ (producerReady { filling .ckm 16 32 with cfg := short .ckm } ∧ (short .ckm).frameCap ≤ (filling .ckm 16 32).widx)
    ∧ ((filling .ckm 15 32).widx < (short .ckm).frameCap ∧ (filling .ckm 15 32).widx + 1 < (filling .ckm 15 32).frameLen)
    ∧ ((filling .ckm 31 32).widx < (cfgOf .ckm).frameCap
        ∧ (filling .ckm 31 32).widx + 1 = (filling .ckm 31 32).frameLen)
    ∧ (producerReady (completed .ch11 frameA) ∧ (completed .ch11 frameA).fsm = .full)
    ∧ (producerReady (filling .joy 7 26) ∧ ([] : List Byte).length ≠ (cfgOf .joy).joyLen)
    ∧ ((frameJ 0xC3 0x18).length = (short .joy).joyLen ∧ (short .joy).frameCap < (frameJ 0xC3 0x18).length)
    ∧ ((frameJ 0xC3 0x18).length = (cfgOf .joy).joyLen ∧ (frameJ 0xC3 0x18).length ≤ (cfgOf .joy).frameCap)
    ∧ environmentReady (idle .joy .environment)
    ∧ (writesFraming .isNew = false ∧ leaves (exec .isNew (idle .joy .consumer)) (fun _ => true) = true) :=
  ⟨⟨rfl, rfl, rfl, by decide⟩, ⟨by decide, by decide⟩, ⟨rfl, rfl, rfl, by decide⟩, ⟨rfl, by decide⟩,
    ⟨by decide, by decide⟩, ⟨by decide, by decide⟩, ⟨rfl, rfl⟩, ⟨rfl, by decide⟩, ⟨by decide, by decide⟩,
    ⟨by decide, by decide⟩, ⟨rfl, rfl⟩, rfl, by decide⟩

/-- For PushStoresOneByteAtTheWriteIndex and PushCompletesExactlyWhenTheFrameIsFull: the last byte of a frame, and the
one before it. -/
theorem test_witness_push : Memory.wf (filling .ch11 24 25).mem = true ∧ BlockInv (filling .ch11 24 25)
    ∧ leaves (exec (.push 9) (filling .ch11 24 25)) (fun t => t.fsm == .full) = true
    ∧ leaves (exec (.push 9) (filling .ch11 23 25)) (fun t => t.fsm == .filling) = true :=
  ⟨rfl, test_inv_filling.1, by decide, by decide⟩

/-- For DiscardedBytesLeaveTheBlockAsItWas: vector F20 and vector F6. -/
theorem test_witness_discarded :
    (producerReady (idle .ch11 .producer) ∧ (idle .ch11 .producer).fsm = .empty
        ∧ ∀ b ∈ ([0x00, 0xFF, 0x5A] : List Byte), frameSelect (idle .ch11 .producer).cfg b = none)
    ∧ (completed .ch11 frameA).fsm = .full ∧ frameSelect (completed .ch11 frameA).cfg 0x77 = none :=
  ⟨⟨rfl, rfl, by decide⟩, rfl, by decide⟩

/-- For LoadfDeliversAWholeFrame: the three lengths are in test_witness_transitions. -/
theorem test_witness_loadf : producerReady (filling .joy 7 26) ∧ (filling .joy 7 26).cfg.proto = .joy
    ∧ Memory.wf (filling .joy 7 26).mem = true := ⟨rfl, rfl, rfl⟩

/-- For FeedCompletesTheFrame: one missing byte; a whole frame from EMPTY and from FULL. -/
theorem test_witness_feed :
    (BlockInv (filling .ch11 24 25) ∧ producerReady (filling .ch11 24 25)
        ∧ (filling .ch11 24 25).frameLen ≤ (filling .ch11 24 25).cfg.frameCap
        ∧ ([0x00] : List Byte).length = (filling .ch11 24 25).frameLen - (filling .ch11 24 25).widx)
    ∧ (BlockInv (idle .ch11 .producer) ∧ (idle .ch11 .producer).fsm ≠ .filling
        ∧ frameSelect (idle .ch11 .producer).cfg 0x0F = some ⟨25, none⟩ ∧ frameA.tail.length + 1 = 25)
    ∧ BlockInv (completed .ch11 frameA) ∧ (completed .ch11 frameA).fsm ≠ .filling :=
  ⟨⟨test_inv_filling.1, rfl, by decide, rfl⟩, ⟨test_inv_idle _ _, by decide, by decide, rfl⟩, test_inv_completed.1,
    by decide⟩

/-- For LateDecodeSeesTheMixture: a frame pending, a byte discarded since (vector F16). -/
theorem test_witness_late_empty : BlockInv { completed .ch11 frameA with fsm := .empty, widx := 0 }
    ∧ ({ completed .ch11 frameA with fsm := .empty, widx := 0 } : State).fsm ≠ .filling
    ∧ (completed .ch11 frameA).wait = none :=
  ⟨inv_of _ (by decide) rfl (by decide), by decide, rfl⟩

/-- The same from FULL: program 4, step 3. -/
theorem test_witness_late : BlockInv (completed .ch11 frameA) ∧ producerReady (completed .ch11 frameA)
    ∧ (completed .ch11 frameA).fsm = .full ∧ (completed .ch11 frameA).frameComplete = true
    ∧ frameSelect (completed .ch11 frameA).cfg 0x0F = some ⟨25, none⟩
    ∧ ([0xFF, 0xFF, 0xFF] : List Byte).length + 1 < 25 ∧ ([0xFF, 0xFF, 0xFF] : List Byte).length + 1 ≤ 32 :=
  ⟨test_inv_completed.1, rfl, rfl, rfl, by decide, by decide, by decide⟩

/-- The same on CKM and on JOY, where one byte of the later frame is accepted. -/
theorem test_witness_late_protocols :
    (BlockInv (completed .ckm (frameK 0xE8 0x25 0x0C)) ∧ (completed .ckm (frameK 0xE8 0x25 0x0C)).wait = none
        ∧ frameSelect (cfgOf .ckm) 0x20 = some ⟨32, some 0⟩ ∧ (cfgOf .ckm).ckmModels[0]? = some ⟨0x20, 32, 2, 14⟩
        ∧ 32 ≤ (cfgOf .ckm).frameCap)
    ∧ BlockInv (completed .joy (frameJ 0xC3 0x18)) ∧ (completed .joy (frameJ 0xC3 0x18)).wait = none
        ∧ (frameSelect (cfgOf .joy) 0x00).isSome = true :=
  ⟨⟨inv_of _ (by decide) ⟨by decide, by decide, by decide⟩ (by decide), rfl, by decide, rfl, by decide⟩,
    test_inv_completed.2, rfl, by decide⟩

/-- For the posts: below the depth, and at it. -/
theorem test_witness_posts : producerReady (idle .joy .producer) ∧ 1 < (idle .joy .producer).cfg.qDepth
    ∧ (idle .joy .producer).cfg.qDepth ≤ 2 := ⟨rfl, by decide, by decide⟩

/-- For the waits as they are issued: with a post, and without one at the bounds of `t`. -/
theorem test_witness_waits : consumerReady (pending .ch11 frameA) ∧ (pending .ch11 frameA).slotPending = true
    ∧ 0 < ({ idle .joy .consumer with qCount := 1 } : State).qCount
    ∧ consumerReady (idle .joy .consumer) ∧ (idle .joy .consumer).slotPending = false
    ∧ (idle .joy .consumer).qCount = 0 ∧ (0xFFFFFFFF : Word) ≠ 0 ∧ (1 : Word) ≠ 0 :=
  ⟨⟨rfl, rfl⟩, rfl, by decide, ⟨rfl, rfl⟩, rfl, rfl, by decide, by decide⟩

/-- For BlockedWaitCompletes, clause by clause: vectors H3 to H5. -/
theorem test_witness_blocked :
    ((blocked .slot false .expire).wait = some ⟨.slot, false⟩ ∧ (blocked .slot false .expire).stream = .expire :: [])
    ∧ ({ blocked .slot true .resume with slotPending := true } : State).slotPending = true
    ∧ 0 < ({ blocked .queue false .resume with qCount := 1 } : State).qCount
    ∧ holdsPost .slot (blocked .slot true .resume) = false ∧ holdsPost .queue (blocked .queue false .resume) = false
    ∧ (blocked .queue false .resume).stream = .resume :: [] :=
  ⟨⟨rfl, rfl⟩, rfl, by decide, rfl, rfl, rfl⟩

/-- For BlockedConsumerIssuesNothing. -/
theorem test_witness_silent :
    (({ blocked .slot false .resume with issuer := .consumer } : State).wait.isSome = true
        ∧ mayIssue .decode .consumer = true)
    ∧ ({ blocked .slot false .resume with issuer := .environment } : State).issuer = .environment :=
  ⟨⟨rfl, rfl⟩, rfl⟩

/-- For ProducerIsNeverBlocked: while the consumer is blocked. -/
theorem test_witness_producer : producerReady (blocked .slot false .resume) ∧ mayIssue (.push 0) .producer = true
    ∧ mayIssue (.loadf []) .producer = true ∧ (blocked .slot false .resume).cfg.proto = .joy := ⟨rfl, rfl, rfl, rfl⟩

/-- For the statements about DECODE of a pending frame, in the three protocols. -/
theorem test_witness_pending :
    (consumerReady (pending .ch11 frameA) ∧ (pending .ch11 frameA).frameComplete = true
        ∧ readable (pending .ch11 frameA) ∧ 24 ≤ (pending .ch11 frameA).cfg.frameCap)
    ∧ readable (pending .ckm (frameK 0xE8 0x25 0x0C)) ∧ readable (pending .joy (frameJ 0xC3 0x18))
    ∧ (idle .joy .consumer).frameComplete = false
    ∧ leaves (exec .decode (pending .joy (frameJ 0xC3 0x18))) (fun _ => true) = true := by
  refine ⟨⟨⟨rfl, rfl⟩, rfl, ?_, by decide⟩, ⟨⟨0x20, 32, 2, 14⟩, rfl, by decide⟩, ?_, rfl, by decide⟩
  · show ch11Extent ≤ 32; decide
  · show joyExtent ≤ 32; decide

/-- For the CKM statements: K1, K1x, its first and its last byte changed, and K1p. -/
theorem test_witness_ckm :
    (consumerReady (pending .ckm (frameK 0xE8 0x25 0x0C)) ∧ (cfgOf .ckm).ckmModels[0]? = some ⟨0x20, 32, 2, 14⟩
        ∧ CkmModel.wf ⟨0x20, 32, 2, 14⟩ = true ∧ 32 ≤ (cfgOf .ckm).frameCap
        ∧ Memory.wf (pending .ckm (frameK 0xE8 0x25 0x0C)).mem = true
        ∧ ckmChecksumHolds (pending .ckm (frameK 0xE8 0x25 0x0C)) ⟨0x20, 32, 2, 14⟩)
    ∧ ¬ckmChecksumHolds (pending .ckm (frameK 0xE9 0x25 0x0C)) ⟨0x20, 32, 2, 14⟩
    ∧ (0 < 32 ∧ (0x21 : Byte) ≠ (pending .ckm (frameK 0xE8 0x25 0x0C)).buf 0)
    ∧ (31 < 32 ∧ (0x0D : Byte) ≠ (pending .ckm (frameK 0xE8 0x25 0x0C)).buf 31)
    ∧ (0xDC : Byte).toNat + (0xDB : Byte).toNat
        = ((pending .ckm (frameK 0xE8 0x25 0x0C)).buf 2).toNat
          + ((pending .ckm (frameK 0xE8 0x25 0x0C)).buf 4).toNat := by
  refine ⟨⟨⟨rfl, rfl⟩, rfl, by decide, by decide, by decide, ?_⟩, ?_, by decide, by decide, by decide⟩
  · unfold ckmChecksumHolds; decide
  · unfold ckmChecksumHolds; decide

/-- For the JOY statements: JA, JB, JC. -/
theorem test_witness_joy :
    (consumerReady (pending .joy (frameJ 0xC3 0x18)) ∧ (cfgOf .joy).wf = true ∧ 25 ≤ (cfgOf .joy).frameCap
        ∧ joyChecksumHolds (pending .joy (frameJ 0xC3 0x18)) ∧ joyIdentityHolds (pending .joy (frameJ 0xC3 0x18)))
    ∧ ¬joyChecksumHolds (pending .joy (frameJ 0xC3 0x19))
    ∧ joyChecksumHolds (pending .joy (frameJ 0xC4 0x19)) ∧ ¬joyIdentityHolds (pending .joy (frameJ 0xC4 0x19))
    ∧ bitsToFixed 11 0x3F000000 = some 1024 := by
  refine ⟨⟨⟨rfl, rfl⟩, by decide, by decide, ?_, ?_⟩, ?_, ?_, ?_, by decide⟩
  · unfold joyChecksumHolds; decide
  · unfold joyIdentityHolds; decide
  · unfold joyChecksumHolds; decide
  · unfold joyChecksumHolds; decide
  · unfold joyIdentityHolds; decide

/-- For Bits2fixConverts, clause by clause at the bounds: exponents 0, 1, 139 and 140 with `F = 11`. -/
theorem test_witness_bits2fix : (eitherReady (idle .ch11 .producer) ∧ eitherReady (idle .ch11 .consumer))
    ∧ 0x807FFFFF / 2 ^ 23 % 256 = 0
    ∧ (0x00800000 / 2 ^ 23 % 256 = 1 ∧ (0 : Int) ≤ (23 - 11) - (1 - 127))
    ∧ (0x45FFFFFF / 2 ^ 23 % 256 = 139 ∧ (0 : Int) ≤ (23 - 11) - (139 - 127))
    ∧ (0x46000000 / 2 ^ 23 % 256 = 140 ∧ ((23 - 11) - (140 - 127) : Int) < 0)
    ∧ (idle .ch11 .consumer).cfg.fixFracBits = 11 :=
  ⟨⟨.inl rfl, .inr ⟨rfl, rfl⟩⟩, by decide, ⟨by decide, by decide⟩, ⟨by decide, by decide⟩, ⟨by decide, by decide⟩, rfl⟩

/-- For GetChReadsBelowTheCount: the last entry of a full array, the first index beyond it, and a JOY instance; and for
GetLinkReadsBothBits off CH11. -/
theorem test_witness_accessors : consumerReady { idle .ch11 .consumer with chCount := 18 }
    ∧ ((17 : Byte).toNat < 18 ∧ (17 : Byte).toNat < ({ idle .ch11 .consumer with chCount := 18 } : State).chCount)
    ∧ ({ idle .ch11 .consumer with chCount := 18 } : State).chCount ≤ (18 : Byte).toNat
    ∧ (BlockInv (idle .joy .consumer) ∧ consumerReady (idle .joy .consumer)
        ∧ (idle .joy .consumer).cfg.proto = .joy ∧ (idle .joy .consumer).cfg.proto ≠ .ch11) :=
  ⟨⟨rfl, rfl⟩, ⟨by decide, by decide⟩, by decide, ⟨test_inv_idle _ _, ⟨rfl, rfl⟩, rfl, by decide⟩⟩

/-- For the statements about RESET. -/
theorem test_witness_reset : environmentReady (idle .ckm .environment) ∧ (idle .ckm .environment).cfg.wf = true
    ∧ leaves (exec .reset (idle .ckm .environment)) (fun _ => true) = true
    ∧ frameSelect (idle .ckm .environment).cfg 0x40 = none := ⟨⟨rfl, rfl⟩, by decide, by decide, by decide⟩

/-- For OnlyTheOwnersWrite: an operation of each group of writers gives a next state. -/
theorem test_witness_owners : leaves (exec (.push 0) (idle .joy .producer)) (fun _ => true) = true
    ∧ leaves (exec .decode (pending .ch11 frameA)) (fun _ => true) = true
    ∧ leaves (exec (.setSw 15 3) (idle .joy .consumer)) (fun _ => true) = true
    ∧ leaves (exec .clrNew (idle .joy .consumer)) (fun _ => true) = true
    ∧ leaves (exec (.waitSlot 1) (idle .joy .consumer)) (fun _ => true) = true
    ∧ leaves (exec .sigQ (idle .joy .producer)) (fun _ => true) = true
    ∧ leaves (exec (.bits2fix 0) (idle .joy .consumer)) (fun _ => true) = true := by decide

/-- For StepKeepsTheParameters, StepKeepsTheInvariant and StepNeverFaults: a step from a state with the invariant. -/
theorem test_witness_invariant : BlockInv (State.reset.withFetchWord 16 0x0F01)
    ∧ leaves (step (State.reset.withFetchWord 16 0x0F01)) (fun t => t.fsm == .filling) = true :=
  ⟨inv_of _ (by decide) rfl (by decide), by decide⟩

/-- R225 on an instance R6 allows: a frame of the short model pending, the first byte of one that outgrows the buffer
accepted. -/
def outgrown : State :=
  { idle .ckm .consumer with
    cfg := { cfgOf .ckm with ckmModels := [⟨0x21, 10, 1, 3⟩, ⟨0x22, 40, 2, 18⟩] }
    mem := [(0, 0x22)], fsm := .filling, widx := 1, frameLen := 40, model := 1, frameComplete := true }

/-- For CkmFrameBeyondTheBufferCompletes and DecodeConsumesThePendingFrame; DECODE completes there. -/
theorem test_witness_outgrown : consumerReady outgrown ∧ outgrown.frameComplete = true
    ∧ outgrown.model < outgrown.cfg.ckmModels.length ∧ outgrown.cfg.ckmModels[outgrown.model]? = some ⟨0x22, 40, 2, 18⟩
    ∧ CkmModel.wf ⟨0x22, 40, 2, 18⟩ = true ∧ outgrown.cfg.frameCap < 40 ∧ BlockInv outgrown
    ∧ ∃ t, exec .decode outgrown = .next t ∧ t.frameComplete = false :=
  ⟨⟨rfl, rfl⟩, rfl, by decide, rfl, by decide, by decide,
    inv_of _ (by decide) ⟨by decide, by decide, by decide⟩ (by decide), _, rfl, rfl⟩

/-- For EveryOperationCompletes: each context's operation, the producer's beside a blocked consumer. -/
theorem test_witness_runs : (BlockInv (idle .joy .producer) ∧ mayRun (.loadf []) (idle .joy .producer))
    ∧ mayRun .decode outgrown ∧ mayRun .reset (idle .joy .environment)
    ∧ mayRun (.bits2fix 0) (idle .ch11 .producer) ∧ mayRun (.push 0) (blocked .slot false .resume) := by
  refine ⟨⟨test_inv_idle _ _, rfl, fun _ _ => rfl, fun h => absurd rfl h⟩, ⟨rfl, nofun, fun _ => rfl⟩,
    ⟨rfl, nofun, fun _ => rfl⟩, ⟨rfl, nofun, fun h => absurd rfl h⟩, ⟨rfl, nofun, fun h => absurd rfl h⟩⟩

end Sys2Proof.Tests
end

section
/-! The parameters of R6: no operation and no event at the ports changes them. -/

namespace Sys2Proof.Machine

variable {s t : State}

/-- Ending an operation leaves the parameters alone: it adds at most a result. -/
@[simp] theorem finish_cfg (e : Ended) : (finish e).cfg = e.state.cfg := by
  obtain ⟨l, h⟩ := finish_eq e
  rw [h]

@[simp] theorem postQueue_cfg (s : State) : (postQueue s).cfg = s.cfg := by
  unfold postQueue
  split
  · rfl
  · rfl

@[simp] theorem takePost_cfg (p : Primitive) (s : State) : (takePost p s).cfg = s.cfg := by
  rw [takePost_eq]

/-- A wait that ends leaves the parameters alone, whichever way it ends (R156). -/
theorem waitEnds_cfg {p : Primitive} {x : Bool} {e : Ended} (h : waitEnds p x s = some e) : e.state.cfg = s.cfg := by
  obtain ⟨-, he⟩ | ⟨-, -, he⟩ | ⟨-, -, he⟩ := waitEnds_cases p x s <;> rw [he] at h <;> cases h
  · exact takePost_cfg p s
  · rfl

@[simp] theorem waitOn_cfg (p : Primitive) (x : Word) (s : State) : (waitOn p x s).cfg = s.cfg := by
  obtain ⟨l, w, -, -, h, -⟩ := waitOn_change p x s
  rw [h]

theorem FramingChange.cfg_eq (h : FramingChange s t) : t.cfg = s.cfg := by
  rw [h.rest]

theorem consumeFrame_cfg (h : consumeFrame s = .next t) : t.cfg = s.cfg := by
  obtain ⟨-, c, ht⟩ := consumeFrame_change h
  rw [ht]

/-- The effect of every operation, RESET among them, leaves the parameters alone (R6, R28). -/
theorem Effect.cfg_eq {i : Instr} (h : Effect i s t) : t.cfg = s.cfg := by
  cases i
  case push b => cases h; exact (pushByte_change b s).cfg_eq
  case loadf d => obtain ⟨-, rfl⟩ := h; exact (loadFrame_change d s).cfg_eq
  case sigQ => cases h; exact postQueue_cfg s
  case waitSlot x => cases h; exact waitOn_cfg .slot x s
  case waitQ x => cases h; exact waitOn_cfg .queue x s
  case decode => exact consumeFrame_cfg h
  case bits2fix x => cases h; exact finish_cfg (convert x s)
  case reset => obtain ⟨-, rfl⟩ := h; rfl
  -- SIG_SLOT and the accessors: one named update or one reply each.
  all_goals (cases h; rfl)

theorem exec_cfg {i : Instr} (h : exec i s = .next t) : t.cfg = s.cfg := by
  obtain ⟨-, -, he⟩ := exec_next h
  exact he.cfg_eq

/-- What a declared expiry can do: it marks the blocked wait (R156). -/
theorem declareExpired_next (h : declareExpired s = .next t) :
    ∃ w, s.wait = some w ∧ t = s.setWait (some ⟨w.prim, true⟩) := by
  unfold declareExpired at h
  split at h
  · cases h; exact ⟨_, ‹_›, rfl⟩
  · cases h

/-- What the moment of completion can do: the blocked wait completes, or it stays blocked (R156). -/
theorem resumeWait_next (h : resumeWait s = .next t) :
    ∃ w, s.wait = some w
      ∧ ((∃ e, waitEnds w.prim w.expired s = some e ∧ t = (finish e).setWait none)
        ∨ (waitEnds w.prim w.expired s = none ∧ t = s)) := by
  unfold resumeWait at h
  split at h
  · split at h
    · cases h; exact ⟨_, ‹_›, .inl ⟨_, ‹_›, rfl⟩⟩
    · cases h; exact ⟨_, ‹_›, .inr ⟨‹_›, rfl⟩⟩
  · cases h

theorem declareExpired_cfg (h : declareExpired s = .next t) : t.cfg = s.cfg := by
  obtain ⟨w, -, rfl⟩ := declareExpired_next h
  rfl

theorem resumeWait_cfg (h : resumeWait s = .next t) : t.cfg = s.cfg := by
  obtain ⟨w, -, ⟨e, he, rfl⟩ | ⟨-, rfl⟩⟩ := resumeWait_next h
  · rw [setWait_cfg, finish_cfg, waitEnds_cfg he]
  · rfl

/-- Settles O44: a step waits, runs one operation, or takes one of the two events of a blocked wait, and none of them
writes the parameters. -/
theorem stepKeepsTheParameters : Obligations.StepKeepsTheParameters := by
  intro s t h
  obtain ⟨-, hs⟩ | ⟨c, bytes, rest, -, hc⟩ | ⟨rest, -, hs⟩ | ⟨rest, -, hs⟩ := step_cases s
  · rw [hs] at h; cases h; rfl
  · obtain ⟨i, left, -, hs⟩ | ⟨e, -, hs⟩ := hc <;> rw [hs] at h
    · exact (exec_cfg h).trans (taken_cfg s _ _)
    · cases h
  · rw [hs] at h; exact (declareExpired_cfg h).trans (taken_cfg s _ _)
  · rw [hs] at h; exact (resumeWait_cfg h).trans (taken_cfg s _ _)

end Sys2Proof.Machine
end

section
/-! The invariant of the block (R15 and the rules gathered in `BlockInv`): the state after reset has it, and every step
keeps it. One rule per named update of the state comes first; the operations are chains of those updates. -/

namespace Sys2Proof.Machine

variable {s t : State}

/-! ## What R6 says of the parameters -/

theorem ckmModel_wf_iff (m : CkmModel) :
    m.wf = true ↔ m.off + 2 * m.nch + 2 ≤ m.len ∧ m.nch ≤ 18 ∧ m.len ≤ 255 := by
  simp [CkmModel.wf, and_assoc]

theorem models_wf_of_config_wf {c : Config} (h : c.wf = true) : ∀ m ∈ c.ckmModels, m.wf = true := by
  simp only [Config.wf, Bool.and_eq_true, List.all_eq_true] at h
  tauto

theorem models_length_pos_of_config_wf {c : Config} (h : c.wf = true) : 0 < c.ckmModels.length := by
  simp only [Config.wf, Bool.and_eq_true, Bool.not_eq_true', List.isEmpty_eq_false_iff] at h
  exact List.length_pos_iff.2 (by tauto)

theorem joyLen_of_config_wf {c : Config} (h : c.wf = true) : c.joyLen = 25 ∨ c.joyLen = 26 := by
  simp only [Config.wf, Bool.and_eq_true, Bool.or_eq_true, beq_iff_eq] at h
  tauto

/-- R60, R6: off CKM every frame has at least 25 bytes. -/
theorem declaredLength_ge (hw : s.cfg.wf = true) (hp : s.cfg.proto ≠ .ckm) {n : Nat}
    (hd : declaredLength s = some n) : 25 ≤ n := by
  unfold declaredLength at hd
  split at hd
  case h_1 => cases hd; exact Nat.le_refl 25
  case h_2 hckm => exact absurd hckm hp
  case h_3 => cases hd; have := joyLen_of_config_wf hw; omega

/-- What an accepted first byte latches (R90, R94): a length in range, a model of the table, and the length which that
model, or the protocol, declares. -/
theorem frameSelect_some {b : Byte} {sel : Selected} (hw : s.cfg.wf = true) (h : frameSelect s.cfg b = some sel) :
    2 ≤ sel.len ∧ sel.len ≤ 255
      ∧ (s.cfg.proto = .ckm → sel.model.getD s.model < s.cfg.ckmModels.length)
      ∧ declaredLength (s.latch sel.len sel.model) = some sel.len := by
  unfold frameSelect at h
  split at h
  case h_1 hp =>
    split at h <;> cases h
    exact ⟨by decide, by decide, by simp [hp], by simp [declaredLength, hp]⟩
  case h_2 hp =>
    obtain ⟨k, m, hmodel, hk, hlen, -⟩ := selectModel_some h
    have hm := (ckmModel_wf_iff m).1 (models_wf_of_config_wf hw m (List.mem_of_getElem? hk))
    obtain ⟨hlt, -⟩ := List.getElem?_eq_some_iff.1 hk
    exact ⟨by omega, by omega, by simp [hmodel, hlt], by simp [declaredLength, hp, hmodel, hk, hlen]⟩
  case h_3 hp =>
    cases h
    have := joyLen_of_config_wf hw
    have hrange : 2 ≤ s.cfg.joyLen ∧ s.cfg.joyLen ≤ 255 := by omega
    exact ⟨hrange.1, hrange.2, by simp [hp], by simp [declaredLength, hp]⟩

/-! ## One rule per named update -/

/-- The invariant says nothing of these elements, and of the queue's count only its bound. -/
theorem BlockInv.congr (h : BlockInv s)
    (ht : t =
      { s with
        newPacket := t.newPacket, stick := t.stick, slotPending := t.slotPending, qCount := t.qCount
        switchBank := t.switchBank, wait := t.wait, issuer := t.issuer, stream := t.stream
        results := t.results, draws := t.draws })
    (hq : t.qCount ≤ s.cfg.qDepth) : BlockInv t := by
  rw [ht]
  exact { h with queue := hq }

theorem BlockInv.setSlot (h : BlockInv s) (b : Bool) : BlockInv (s.setSlot b) := h.congr rfl h.queue
theorem BlockInv.setQueue (h : BlockInv s) {n : Nat} (hn : n ≤ s.cfg.qDepth) : BlockInv (s.setQueue n) := h.congr rfl hn
theorem BlockInv.setNew (h : BlockInv s) (b : Bool) : BlockInv (s.setNew b) := h.congr rfl h.queue
theorem BlockInv.setSticks (h : BlockInv s) (v : Sticks) : BlockInv (s.setSticks v) := h.congr rfl h.queue
theorem BlockInv.setSwitches (h : BlockInv s) (w : Word) : BlockInv (s.setSwitches w) := h.congr rfl h.queue
theorem BlockInv.setWait (h : BlockInv s) (w : Option Wait) : BlockInv (s.setWait w) := h.congr rfl h.queue
theorem BlockInv.drawn (h : BlockInv s) (n : Nat) : BlockInv (s.drawn n) := h.congr rfl h.queue
theorem BlockInv.taken (h : BlockInv s) (c : Ctx) (r : List Event) : BlockInv (s.taken c r) := h.congr rfl h.queue
theorem BlockInv.reply (h : BlockInv s) (c : Ctx) (r : Result) : BlockInv (s.reply c r) := h.congr rfl h.queue

theorem BlockInv.frameAt (h : BlockInv s) {f : Fsm} {w : Nat} (hf : FramingInv (s.frameAt f w))
    (hd : f ≠ .empty → declaredLength s = some s.frameLen) : BlockInv (s.frameAt f w) :=
  { h with framing := hf, declared := hd }

/-- Back to EMPTY (R92, R96). -/
theorem BlockInv.emptied (h : BlockInv s) : BlockInv (s.frameAt .empty 0) :=
  h.frameAt rfl (absurd rfl)

theorem BlockInv.store (h : BlockInv s) {i : Nat} (b : Byte) (hi : i < s.cfg.frameCap) : BlockInv (s.store i b) :=
  { h with canonical := wf_write i b h.canonical, inside := within_write b h.inside hi }

theorem BlockInv.storeAll (h : BlockInv s) {d : List Byte} (hd : d.length ≤ s.cfg.frameCap) :
    BlockInv (s.storeAll 0 d) :=
  { h with
    canonical := wf_writeAll 0 d h.canonical
    inside := within_writeAll h.inside (show 0 + d.length ≤ s.cfg.frameCap by omega) }

/-- A length, and on CKM a model, is latched while no frame is in progress (R94, R99). -/
theorem BlockInv.latch (h : BlockInv s) (he : s.fsm = .empty) {n : Nat} {m : Option Nat} (hn : 1 ≤ n ∧ n ≤ 255)
    (hm : s.cfg.proto = .ckm → m.getD s.model < s.cfg.ckmModels.length) : BlockInv (s.latch n m) :=
  { h with
    framing := by simpa [FramingInv, he] using h.framing
    length := hn
    modelIndex := hm
    declared := fun hne => absurd he hne }

theorem BlockInv.setComplete (h : BlockInv s) {b : Bool}
    (hb : s.cfg.proto ≠ .ckm → b = true → 25 ≤ s.cfg.frameCap) : BlockInv (s.setComplete b) :=
  { h with fitted := hb }

theorem BlockInv.setChannels (h : BlockInv s) {v : Vector Half 18} {n : Nat}
    (hc : ChannelInv (s.setChannels v n)) : BlockInv (s.setChannels v n) :=
  { h with channels := hc }

theorem BlockInv.setLink (h : BlockInv s) (hp : s.cfg.proto = .ch11) (lost fail : Bool) :
    BlockInv (s.setLink lost fail) :=
  { h with link := fun hne => absurd hp hne }

/-- A frame of the declared length that fits the buffer completes (R97, R99). -/
theorem BlockInv.complete (h : BlockInv s) (hd : declaredLength s = some s.frameLen)
    (hc : s.frameLen ≤ s.cfg.frameCap) : BlockInv (s.complete s.frameLen) := by
  have hfull : BlockInv (s.frameAt .full s.frameLen) := h.frameAt ⟨rfl, h.length.1, hc⟩ fun _ => hd
  have hfit : s.cfg.proto ≠ .ckm → true = true → 25 ≤ s.cfg.frameCap := fun hp _ =>
    (declaredLength_ge h.parameters hp hd).trans hc
  exact (hfull.setComplete hfit).setSlot true

theorem BlockInv.finish {e : Ended} (h : BlockInv e.state) : BlockInv (finish e) := by
  obtain ⟨l, he⟩ := finish_eq e
  rw [he]
  exact h.congr rfl h.queue

/-! ## Framing -/

/-- What the store step needs of its state, where a first byte is being stored too and R15's (b) does not hold yet: the
invariant with the machine put back to EMPTY, and a declared length that the write index has not reached. -/
structure Storing (s : State) : Prop where
  base : BlockInv (s.frameAt .empty 0)
  declared : declaredLength s = some s.frameLen
  room : s.widx < s.frameLen

theorem storeStep_inv (b : Byte) (h : Storing s) : BlockInv (finish (storeStep b s)) := by
  obtain ⟨hbase, hd, hroom⟩ := h
  obtain ⟨-, e⟩ | ⟨hcap, hlast, e⟩ | ⟨hcap, hmore, e⟩ := storeStep_cases b s <;> rw [e]
  · exact hbase.finish (e := overflowed s)
  · have hstored : BlockInv ((s.frameAt .empty 0).store s.widx b) := hbase.store b hcap
    have hfull := hstored.complete hd (show s.frameLen ≤ s.cfg.frameCap by omega)
    rw [hlast]
    exact hfull.reply _ _
  · have hstored : BlockInv ((s.frameAt .empty 0).store s.widx b) := hbase.store b hcap
    have hbounds : 1 ≤ s.widx + 1 ∧ s.widx + 1 < s.frameLen ∧ s.widx + 1 ≤ s.cfg.frameCap := by omega
    exact (hstored.frameAt (f := .filling) hbounds fun _ => hd).reply _ _

theorem firstByte_inv (b : Byte) (h : BlockInv s) (he : s.fsm = .empty) : BlockInv (finish (firstByte b s)) := by
  have hw : s.widx = 0 := by simpa [FramingInv, he] using h.framing
  obtain ⟨-, e⟩ | ⟨sel, hsel, e⟩ := firstByte_cases b s <;> rw [e]
  · exact h.reply _ _
  · obtain ⟨hlo, hhi, hmodel, hdecl⟩ := frameSelect_some h.parameters hsel
    have hlatched : BlockInv (s.latch sel.len sel.model) := h.latch he ⟨by omega, hhi⟩ hmodel
    exact storeStep_inv b ⟨hlatched.emptied, hdecl, show s.widx < sel.len by omega⟩

theorem pushByte_inv (b : Byte) (h : BlockInv s) : BlockInv (finish (pushByte b s)) := by
  unfold pushByte
  split
  case h_1 => exact firstByte_inv b h.emptied rfl
  case h_2 he => exact firstByte_inv b h he
  case h_3 hf =>
    have hframing : 1 ≤ s.widx ∧ s.widx < s.frameLen ∧ s.widx ≤ s.cfg.frameCap := by
      simpa [FramingInv, hf] using h.framing
    exact storeStep_inv b ⟨h.emptied, h.declared (by simp [hf]), hframing.2.1⟩

theorem loadFrame_inv (d : List Byte) (h : BlockInv s) (hp : s.cfg.proto = .joy) :
    BlockInv (finish (loadFrame d s)) := by
  obtain ⟨-, e⟩ | ⟨-, -, e⟩ | ⟨hlen, hcap, e⟩ := loadFrame_cases d s <;> rw [e]
  · exact h.reply _ _
  · exact h.emptied.finish (e := overflowed s)
  · have hjoy := joyLen_of_config_wf h.parameters
    have hlatched : BlockInv (((s.frameAt .empty 0).storeAll 0 d).latch d.length none) :=
      (h.emptied.storeAll hcap).latch rfl (by omega) h.modelIndex
    have hdecl : declaredLength (((s.frameAt .empty 0).storeAll 0 d).latch d.length none) = some d.length := by
      simp [declaredLength, hp, hlen]
    exact (hlatched.complete hdecl hcap).reply _ _

/-! ## Handoff -/

theorem postQueue_inv (h : BlockInv s) : BlockInv (postQueue s) := by
  unfold postQueue
  split
  · exact h.setQueue ‹_›
  · exact h

theorem takePost_inv (p : Primitive) (h : BlockInv s) : BlockInv (takePost p s) := by
  have hq := takePost_qCount_le p s
  exact h.congr (by rw [takePost_eq]) (hq.trans h.queue)

theorem waitEnds_inv {p : Primitive} {x : Bool} {e : Ended} (h : BlockInv s) (he : waitEnds p x s = some e) :
    BlockInv (finish e) := by
  obtain ⟨-, hw⟩ | ⟨-, -, hw⟩ | ⟨-, -, hw⟩ := waitEnds_cases p x s <;> rw [hw] at he <;> cases he
  · exact (takePost_inv p h).finish
  · exact h.finish

theorem waitOn_inv (p : Primitive) (x : Word) (h : BlockInv s) : BlockInv (waitOn p x s) := by
  obtain ⟨l, w, -, -, hw, hq, -⟩ := waitOn_change p x s
  exact h.congr (by rw [hw]) (hq.trans h.queue)

theorem declareExpired_inv (h : BlockInv s) (ht : declareExpired s = .next t) : BlockInv t := by
  obtain ⟨w, -, rfl⟩ := declareExpired_next ht
  exact h.setWait _

theorem resumeWait_inv (h : BlockInv s) (ht : resumeWait s = .next t) : BlockInv t := by
  obtain ⟨w, -, ⟨e, he, rfl⟩ | ⟨-, rfl⟩⟩ := resumeWait_next ht
  · exact (waitEnds_inv h he).setWait none
  · exact h

/-! ## DECODE -/

/-- Every CH11 frame publishes 18 channels, sixteen of 11 bits and two of the two sentinels (R111, R112). -/
theorem ch11Channel_range (s : State) :
    Ch11Channels (s.setChannels (Vector.ofFn fun k => ch11Channel s k) 18) := by
  constructor
  · intro k hk
    have := (ch11Field s k).isLt
    simp [ch11Channel, hk]
    omega
  · intro k hk
    have hk' : ¬k.val < 16 := by omega
    simp only [setChannels_ch, setChannels_cfg, Fin.getElem_fin, Vector.getElem_ofFn, ch11Channel, if_neg hk', sentinel]
    split
    · exact .inr rfl
    · exact .inl rfl

theorem decodeCh11_inv (h : BlockInv s) (hp : s.cfg.proto = .ch11) : BlockInv (decodeCh11 s).2 := by
  have hc : ChannelInv (s.setChannels (Vector.ofFn fun k => ch11Channel s k) 18) := by
    unfold ChannelInv
    rw [setChannels_cfg, hp]
    exact .inr ⟨rfl, ch11Channel_range s⟩
  exact ((h.setChannels hc).setLink hp _ _).setSticks _

theorem decodeCkm_inv {m : CkmModel} (h : BlockInv s) (hp : s.cfg.proto = .ckm) (hm : m ∈ s.cfg.ckmModels) :
    BlockInv (decodeCkm m s).2 := by
  obtain ⟨-, e⟩ | ⟨-, e⟩ := decodeCkm_cases m s <;> rw [e]
  · have hc : ChannelInv (s.setChannels (Vector.ofFn fun k => ckmChannel s m k) m.nch) := by
      unfold ChannelInv
      rw [setChannels_cfg, hp]
      exact .inr ⟨m, hm, rfl⟩
    exact ((h.setChannels hc).setSticks _).drawn 18
  · exact h

theorem decodeJoy_inv (h : BlockInv s) : BlockInv (decodeJoy s).2 := by
  obtain ⟨-, e⟩ | ⟨-, -, e⟩ | ⟨-, -, e⟩ := decodeJoy_cases s <;> rw [e]
  · exact h
  · exact ((h.setSticks _).setSwitches _).drawn 4
  · exact h

theorem unpack_inv {u : Unpacked} (h : BlockInv s) (hu : unpack s = .ok u) : BlockInv u.2 := by
  obtain ⟨hp, rfl⟩ | ⟨hp, m, hm, rfl⟩ | ⟨-, rfl⟩ := unpack_ok hu
  · exact (decodeCh11_inv h hp).drawn _
  · exact (decodeCkm_inv h hp (List.mem_of_getElem? hm)).drawn _
  · exact (decodeJoy_inv h).drawn _

theorem consumeFrame_inv (h : BlockInv s) (ht : consumeFrame s = .next t) : BlockInv t := by
  obtain ⟨-, rfl⟩ | ⟨-, u, hu, rfl⟩ := consumeFrame_next ht
  · exact h.reply _ _
  · exact (((unpack_inv h hu).setComplete (by simp)).setNew _).finish (e := consumed u)

/-! ## RESET -/

theorem freeModel_lt (n : Nat) (hw : s.cfg.wf = true) (hp : s.cfg.proto = .ckm) :
    freeModel n s < s.cfg.ckmModels.length := by
  rw [freeModel, if_pos hp]
  exact Nat.mod_lt _ (models_length_pos_of_config_wf hw)

/-- No protocol asks anything of the channels while none is counted. -/
theorem channelInv_of_chCount_eq_zero (h : s.chCount = 0) : ChannelInv s := by
  unfold ChannelInv
  split
  · exact .inl h
  · exact .inl h
  · exact h

theorem resetState_inv (h : BlockInv s) : BlockInv (resetState s) where
  parameters := h.parameters
  canonical := wf_freeMemory s.draws s.cfg.frameCap
  inside := within_freeMemory s.draws _ _ (Nat.le_refl _)
  framing := rfl
  length := freeFrameLen_range s.draws
  modelIndex := freeModel_lt s.draws h.parameters
  declared := absurd rfl
  fitted := fun _ => nofun
  channels := channelInv_of_chCount_eq_zero rfl
  link := fun _ => ⟨rfl, rfl⟩
  queue := Nat.zero_le _

/-! ## Every operation, every step -/

theorem Effect.inv {i : Instr} (h : BlockInv s) (he : Effect i s t) : BlockInv t := by
  cases i
  case push b => cases he; exact pushByte_inv b h
  case loadf d => obtain ⟨hp, rfl⟩ := he; exact loadFrame_inv d h hp
  case sigSlot => cases he; exact h.setSlot true
  case sigQ => cases he; exact postQueue_inv h
  case waitSlot x => cases he; exact waitOn_inv .slot x h
  case waitQ x => cases he; exact waitOn_inv .queue x h
  case decode => exact consumeFrame_inv h he
  case setSw k v => cases he; exact h.setSwitches _
  case clrNew => cases he; exact h.setNew false
  case bits2fix x => cases he; exact (h.drawn _).finish (e := convert x s)
  case reset => obtain ⟨-, rfl⟩ := he; exact resetState_inv h
  -- The accessors that read hand out a result and change nothing else.
  all_goals (cases he; exact h.reply _ _)

/-- Settles O45: a step waits, runs one operation, or takes one of the two events of a blocked wait; each operation
is a chain of updates that keep the invariant. -/
theorem stepKeepsTheInvariant : Obligations.StepKeepsTheInvariant := by
  intro s t h ht
  obtain ⟨-, hs⟩ | ⟨c, bytes, rest, -, hc⟩ | ⟨rest, -, hs⟩ | ⟨rest, -, hs⟩ := step_cases s
  · rw [hs] at ht; cases ht; exact h
  · obtain ⟨i, left, -, hs⟩ | ⟨e, -, hs⟩ := hc <;> rw [hs] at ht
    · obtain ⟨-, -, he⟩ := exec_next ht
      exact he.inv (h.taken _ _)
    · cases ht
  · rw [hs] at ht; exact declareExpired_inv (h.taken _ _) ht
  · rw [hs] at ht; exact resumeWait_inv (h.taken _ _) ht

/-- Settles O46: the parameters of log 2 are well-formed, no byte is listed, and the rest are the values of R30. -/
theorem resetStateMeetsTheInvariant : Obligations.ResetStateMeetsTheInvariant where
  parameters := by decide
  canonical := rfl
  inside := rfl
  framing := rfl
  length := by decide
  modelIndex := nofun
  declared := absurd rfl
  fitted := fun _ => nofun
  channels := rfl
  link := fun _ => ⟨rfl, rfl⟩
  queue := Nat.zero_le _

/-- Settles O42: `State.reset` lists each of these values. -/
theorem resetStateHoldsTheSpecsValues : Obligations.ResetStateHoldsTheSpecsValues :=
  ⟨rfl, rfl, rfl, rfl, rfl, rfl, rfl, rfl, rfl, rfl, rfl, rfl⟩

end Sys2Proof.Machine
end

section
/-! Who writes what (R27): every operation but RESET changes only the elements it owns. -/

namespace Sys2Proof.Machine

variable {i : Instr} {s t : State}

/-- The ownership table of R27 for one operation that leads from `s` to `t`. -/
def OwnersOnly (i : Instr) (s t : State) : Prop :=
  (writesFraming i = false → sameFraming s t)
    ∧ (writesFraming i = false → i ≠ .decode → t.frameComplete = s.frameComplete)
    ∧ (writesFraming i = true → s.frameComplete = true → t.frameComplete = true)
    ∧ (i = .decode → t.frameComplete = false)
    ∧ (i ≠ .decode → t.ch = s.ch ∧ t.chCount = s.chCount ∧ t.stick = s.stick ∧ t.failsafe = s.failsafe
        ∧ t.signalLost = s.signalLost)
    ∧ (i ≠ .decode → (∀ k v, i ≠ .setSw k v) → t.switchBank = s.switchBank)
    ∧ (i ≠ .decode → i ≠ .clrNew → t.newPacket = s.newPacket)
    ∧ (writesSlot i = false → t.slotPending = s.slotPending)
    ∧ (writesQueue i = false → t.qCount = s.qCount)
    ∧ (canBlock i = false → t.wait = s.wait)
    ∧ (canDraw i = false → t.draws = s.draws)
    ∧ sameOutside s t
    ∧ ∃ l : List Reply, l.length ≤ 1 ∧ t.results = s.results ++ l

theorem writesSlot_of_writesFraming (h : writesFraming i = true) : writesSlot i = true := by
  cases i
  case push => rfl
  case loadf => rfl
  all_goals cases h

theorem writesFraming_eq_false_of_canBlock (h : canBlock i = true) : writesFraming i = false := by
  cases i
  case waitSlot => rfl
  case waitQ => rfl
  all_goals cases h

/-- PUSH and LOADF own the framing elements, and set the two bits of a completion. -/
theorem FramingChange.ownersOnly (h : FramingChange s t) (hi : writesFraming i = true) : OwnersOnly i s t := by
  have hslot := writesSlot_of_writesFraming hi
  have hdecode : i ≠ .decode := by rintro rfl; cases hi
  obtain ⟨hrest, hcomplete, -, b, hresults⟩ := h
  rw [hrest]
  simpa [OwnersOnly, hi, hslot, hdecode, hresults, sameOutside] using hcomplete

/-- A wait owns its primitive, and whether the consumer is blocked. -/
theorem waitOn_ownersOnly {p : Primitive} (x : Word) (s : State) (hi : canBlock i = true)
    (hslot : writesSlot i = false → p = .queue) (hqueue : writesQueue i = false → p = .slot) :
    OwnersOnly i s (waitOn p x s) := by
  have hframing := writesFraming_eq_false_of_canBlock hi
  obtain ⟨l, w, hl, -, hw, -, hcount, hbit⟩ := waitOn_change p x s
  have hdecode : i ≠ .decode := by rintro rfl; cases hi
  rw [hw]
  simpa [OwnersOnly, hi, hframing, hdecode, sameFraming, sameOutside, State.buf, hl] using
    ⟨fun h => hbit (hslot h), fun h => hcount (hqueue h)⟩

/-- DECODE owns the published state, and consumes the pending frame. -/
theorem consumeFrame_ownersOnly (h : consumeFrame s = .next t) : OwnersOnly .decode s t := by
  obtain ⟨hcomplete, c, ht⟩ := consumeFrame_change h
  rw [ht]
  simp [OwnersOnly, writesFraming, canDraw, sameFraming, sameOutside, State.buf, hcomplete]

/-- An operation that only hands out a result writes nothing. -/
theorem reply_ownersOnly (r : Result) (s : State) (hi : writesFraming i = false) (hd : i ≠ .decode) :
    OwnersOnly i s (s.reply s.issuer r) := by
  simp [OwnersOnly, hi, hd, sameFraming, sameOutside]

theorem postQueue_ownersOnly (s : State) : OwnersOnly .sigQ s (postQueue s) := by
  unfold postQueue
  split
  · simp [OwnersOnly, writesFraming, writesQueue, sameFraming, sameOutside]
  · simp [OwnersOnly, writesFraming, sameFraming, sameOutside]

theorem convert_ownersOnly (x : Word) (s : State) : OwnersOnly (.bits2fix x) s (finish (convert x s)) := by
  simp [convert, OwnersOnly, writesFraming, canDraw, sameFraming, sameOutside]

theorem Effect.ownersOnly (h : Effect i s t) (hi : i ≠ .reset) : OwnersOnly i s t := by
  cases i
  case push b => cases h; exact (pushByte_change b s).ownersOnly rfl
  case loadf d => obtain ⟨-, rfl⟩ := h; exact (loadFrame_change d s).ownersOnly rfl
  case sigSlot => cases h; simp [OwnersOnly, writesFraming, writesSlot, sameFraming, sameOutside]
  case sigQ => cases h; exact postQueue_ownersOnly s
  case waitSlot x => cases h; exact waitOn_ownersOnly x s rfl nofun fun _ => rfl
  case waitQ x => cases h; exact waitOn_ownersOnly x s rfl (fun _ => rfl) nofun
  case decode => exact consumeFrame_ownersOnly h
  case setSw k v => cases h; simp [OwnersOnly, writesFraming, sameFraming, sameOutside]
  case clrNew => cases h; simp [OwnersOnly, writesFraming, sameFraming, sameOutside]
  case bits2fix x => cases h; exact convert_ownersOnly x s
  case reset => exact absurd rfl hi
  -- The accessors that read hand out a result.
  all_goals (cases h; exact reply_ownersOnly _ s rfl nofun)

/-- Settles O43: an operation that answers a next state had its effect, and that writes only what the operation owns. -/
theorem onlyTheOwnersWrite : Obligations.OnlyTheOwnersWrite := by
  intro i s t hi h
  obtain ⟨-, -, he⟩ := exec_next h
  exact he.ownersOnly hi

end Sys2Proof.Machine
end

section
/-! What a PUSH leaves in the frame buffer (R45, R95): one rule for the store step, one for a first byte, and one
equation of `pushByte` per state of the machine. -/

namespace Sys2Proof.Machine

variable {s : State} {b : Byte}

theorem pushByte_of_full (h : s.fsm = .full) : pushByte b s = firstByte b (s.frameAt .empty 0) := by
  simp [pushByte, h]

theorem pushByte_of_empty (h : s.fsm = .empty) : pushByte b s = firstByte b s := by
  simp [pushByte, h]

theorem pushByte_of_filling (h : s.fsm = .filling) : pushByte b s = storeStep b s := by
  simp [pushByte, h]

/-- The store step writes at the write index, unless the buffer has no such byte (R95, R96). -/
theorem storeStep_buf (hm : Memory.wf s.mem = true) (a : Nat) :
    (finish (storeStep b s)).buf a = if s.widx < s.cfg.frameCap ∧ a = s.widx then b else s.buf a := by
  obtain ⟨hcap, h⟩ | ⟨hcap, -, h⟩ | ⟨hcap, -, h⟩ := storeStep_cases b s <;> rw [h]
  · simp [overflowed, Nat.not_lt.2 hcap]
  · simp [buf_store hm, hcap]
  · simp [buf_store hm, hcap]

/-- A first byte is stored only when it can start a frame (R93, R94). -/
theorem firstByte_buf (hm : Memory.wf s.mem = true) (a : Nat) :
    (finish (firstByte b s)).buf a =
      if (frameSelect s.cfg b).isSome ∧ s.widx < s.cfg.frameCap ∧ a = s.widx then b else s.buf a := by
  obtain ⟨hsel, h⟩ | ⟨sel, hsel, h⟩ := firstByte_cases b s <;> rw [h]
  · simp [hsel]
  · have hstored : (finish (storeStep b ((s.latch sel.len sel.model).frameAt .filling s.widx))).buf a
        = if s.widx < s.cfg.frameCap ∧ a = s.widx then b else s.buf a := storeStep_buf (by exact hm) a
    simp [hstored, hsel]

/-- Settles O8: by the state the byte arrives in; in FULL the machine is first put back to EMPTY at index 0 (R92). -/
theorem pushStoresOneByteAtTheWriteIndex : Obligations.PushStoresOneByteAtTheWriteIndex := by
  intro b s t hm h a
  obtain ⟨-, -, rfl⟩ := exec_next h
  cases hf : s.fsm with
  | full =>
    have hfirst : (finish (firstByte b (s.frameAt .empty 0))).buf a
        = if (frameSelect s.cfg b).isSome ∧ 0 < s.cfg.frameCap ∧ a = 0 then b else s.buf a :=
      firstByte_buf (by exact hm) a
    simp [pushByte_of_full hf, hfirst]
  | empty => simp [pushByte_of_empty hf, firstByte_buf hm]
  | filling => simp [pushByte_of_filling hf, storeStep_buf hm]

end Sys2Proof.Machine
end

section
/-! The command encoding (R74, R75): each operand form read forwards and backwards, then the decoder and the encoder as
each other's inverse. -/

namespace Sys2Proof

/-! ## The operand forms, read from a written operand -/

/-- Four operand bytes assemble the word they were taken from (R7). -/
@[simp] theorem fourBytes_wordBytes (x : Word) (rest : List Byte) (k : Word → Instr) :
    fourBytes (wordBytes x ++ rest) k = .ok (k x, rest) := by
  simp [wordBytes, fourBytes, le32_wordBytes]

/-- LOADF's length byte holds every length up to 255, so exactly the data bytes are read (R74). -/
theorem counted_data {d : List Byte} (h : d.length ≤ 255) (rest : List Byte) (k : List Byte → Instr) :
    counted (BitVec.ofNat 8 d.length :: (d ++ rest)) k = .ok (k d, rest) := by
  have hn : (BitVec.ofNat 8 d.length).toNat = d.length := by rw [BitVec.toNat_ofNat]; omega
  simp [counted, hn]

/-! ## The operand forms, from an answer back to the bytes read -/

variable {r rest : List Byte} {i : Instr}

theorem exceptMap_ok {α β : Type} {f : α → β} {e : Except DecodeError α} {b : β} (h : e.map f = .ok b) :
    ∃ a, e = .ok a ∧ f a = b := by
  cases e with
  | error e => cases h
  | ok a => cases h; exact ⟨a, rfl, rfl⟩

theorem oneByte_ok {k : Byte → Except DecodeError Instr} (h : oneByte r k = .ok (i, rest)) :
    ∃ b, k b = .ok i ∧ r = b :: rest := by
  unfold oneByte at h
  split at h
  · obtain ⟨a, ha, he⟩ := exceptMap_ok h; cases he; exact ⟨_, ha, rfl⟩
  · cases h

theorem twoBytes_ok {k : Byte → Byte → Except DecodeError Instr} (h : twoBytes r k = .ok (i, rest)) :
    ∃ b c, k b c = .ok i ∧ r = b :: c :: rest := by
  unfold twoBytes at h
  split at h
  · obtain ⟨a, ha, he⟩ := exceptMap_ok h; cases he; exact ⟨_, _, ha, rfl⟩
  · cases h

theorem fourBytes_ok {k : Word → Instr} (h : fourBytes r k = .ok (i, rest)) :
    ∃ x, k x = i ∧ r = wordBytes x ++ rest := by
  unfold fourBytes at h
  split at h
  · cases h; exact ⟨_, rfl, by rw [wordBytes_le32]; rfl⟩
  · cases h

theorem counted_ok {k : List Byte → Instr} (h : counted r k = .ok (i, rest)) :
    ∃ d, d.length ≤ 255 ∧ k d = i ∧ r = BitVec.ofNat 8 d.length :: (d ++ rest) := by
  unfold counted at h
  split at h
  case h_1 n r =>
    split at h
    case isTrue hn =>
      cases h
      have hlen : (r.take n.toNat).length = n.toNat := by simp [hn]
      exact ⟨r.take n.toNat, by omega, rfl, by simp [hlen]⟩
    case isFalse => cases h
  case h_2 => cases h

/-! ## The decoder and the encoder -/

/-- The decoder takes the encoding of a command, and gives that command back (R74). -/
theorem decode_encode (hi : i.wf = true) (rest : List Byte) : decode (encode i ++ rest) = .ok (i, rest) := by
  cases i
  case loadf d => exact counted_data (by simpa [Instr.wf] using hi) rest .loadf
  case waitSlot t => exact fourBytes_wordBytes t rest .waitSlot
  case waitQ t => exact fourBytes_wordBytes t rest .waitQ
  case bits2fix x => exact fourBytes_wordBytes x rest .bits2fix
  case getStick a => simp [encode, decode, oneByte, Except.map]
  case getSw k => simp [encode, decode, oneByte, Except.map]
  case setSw k v => simp [encode, decode, twoBytes, Except.map]
  -- PUSH and GET_CH take any byte, and the others have no operand.
  all_goals rfl

/-- What the decoder accepts begins with the one encoding of the command it answers (R74, R75). -/
theorem decode_ok {bytes : List Byte} (h : decode bytes = .ok (i, rest)) :
    i.wf = true ∧ bytes = encode i ++ rest := by
  unfold decode at h
  split at h
  case h_1 => cases h
  case h_2 op r =>
    -- The number of the opcode decides the form of the operands, and the byte is known by that number.
    have hop : op = BitVec.ofNat 8 op.toNat := by simp
    rw [hop]
    generalize op.toNat = n at h
    split at h
    -- PUSH, GET_CH: one byte, any value
    case h_1 => obtain ⟨b, hk, rfl⟩ := oneByte_ok h; cases hk; exact ⟨rfl, rfl⟩
    case h_8 => obtain ⟨b, hk, rfl⟩ := oneByte_ok h; cases hk; exact ⟨rfl, rfl⟩
    -- LOADF: the length byte and the data
    case h_2 => obtain ⟨d, hd, rfl, rfl⟩ := counted_ok h; exact ⟨by simpa [Instr.wf] using hd, rfl⟩
    -- WAIT_SLOT, WAIT_Q, BITS2FIX: a word
    case h_5 => obtain ⟨x, rfl, rfl⟩ := fourBytes_ok h; exact ⟨rfl, rfl⟩
    case h_6 => obtain ⟨x, rfl, rfl⟩ := fourBytes_ok h; exact ⟨rfl, rfl⟩
    case h_15 => obtain ⟨x, rfl, rfl⟩ := fourBytes_ok h; exact ⟨rfl, rfl⟩
    -- GET_STICK, GET_SW, SET_SW: a byte of bounded range
    case h_9 =>
      obtain ⟨b, hk, rfl⟩ := oneByte_ok h
      obtain ⟨a, ha, rfl⟩ := exceptMap_ok hk
      exact ⟨rfl, by rw [← axisByte_of_axisOf ha]; rfl⟩
    case h_10 =>
      obtain ⟨b, hk, rfl⟩ := oneByte_ok h
      obtain ⟨k, hsw, rfl⟩ := exceptMap_ok hk
      exact ⟨rfl, by rw [← byte_of_switchOf hsw]; rfl⟩
    case h_11 =>
      obtain ⟨b, v, hk, rfl⟩ := twoBytes_ok h
      obtain ⟨k, hsw, rfl⟩ := exceptMap_ok hk
      exact ⟨rfl, by rw [← byte_of_switchOf hsw]; rfl⟩
    case h_17 => cases h
    -- The operations without operands
    all_goals (cases h; exact ⟨rfl, rfl⟩)

/-- Settles O1: each string is decoded. -/
theorem wordsOfTheTableDecode : Obligations.WordsOfTheTableDecode := by
  unfold Obligations.WordsOfTheTableDecode
  decide

/-- Settles O2: every operand form is read back from its bytes, and the opcode fixes the form. -/
theorem decodeOfEncodeIsTheCommand : Obligations.DecodeOfEncodeIsTheCommand :=
  fun _ rest hi => decode_encode hi rest

/-- Settles O3: every operand form that is read was written so, and the opcode fixes the form. -/
theorem decodedBytesAreTheEncoding : Obligations.DecodedBytesAreTheEncoding :=
  fun _ _ _ h => decode_ok h

end Sys2Proof
end

section
/-! What a step does with the bytes presented: a command that decodes is run (R48, R74), the rest is refused by name
(R77). -/

namespace Sys2Proof

/-- An opcode is known by its number (R75). -/
theorem mem_opcodes_iff {op : Byte} : op ∈ Machine.opcodes ↔ op.toNat ∈ Machine.opcodes.map BitVec.toNat :=
  (List.mem_map_of_injective BitVec.toNat_injective).symm

theorem decode_reservedOpcode {op : Byte} (h : op ∉ Machine.opcodes) (tail : List Byte) :
    decode (op :: tail) = .error (.reservedOpcode op) := by
  rw [mem_opcodes_iff] at h
  simp only [decode]
  split
  case h_17 => rfl
  -- Every other branch is that of an opcode.
  all_goals (rename_i hop; rw [hop] at h; exact absurd (by decide) h)

theorem axisOf_error {a : Byte} (h : 3 < a.toNat) : axisOf a = .error (.illegalAxis a) := by
  unfold axisOf
  split
  case h_5 => rfl
  all_goals omega

theorem switchOf_error {i : Byte} (h : 15 < i.toNat) : switchOf i = .error (.illegalSwitch i) :=
  dif_neg (by omega)

theorem decode_getStick_error {a : Byte} (h : 3 < a.toNat) (tail : List Byte) :
    decode (0x14 :: a :: tail) = .error (.illegalAxis a) := by
  simp [decode, oneByte, axisOf_error h, Except.map]

theorem decode_getSw_error {i : Byte} (h : 15 < i.toNat) (tail : List Byte) :
    decode (0x15 :: i :: tail) = .error (.illegalSwitch i) := by
  simp [decode, oneByte, switchOf_error h, Except.map]

theorem decode_setSw_error {i : Byte} (h : 15 < i.toNat) (v : Byte) (tail : List Byte) :
    decode (0x16 :: i :: v :: tail) = .error (.illegalSwitch i) := by
  simp [decode, twoBytes, switchOf_error h, Except.map]

namespace Machine

variable {s : State} {c : Ctx} {bytes left : List Byte} {rest : List Event} {i : Instr}

theorem step_command (hs : s.stream = .command c bytes :: rest) : step s = runCommand c bytes rest s := by
  simp [step, takeEvent, hs]

theorem step_decoded (hs : s.stream = .command c bytes :: rest) (hd : decode bytes = .ok (i, left)) :
    step s = exec i (s.taken c (streamAfter c left rest)) := by
  simp [step_command hs, runCommand, hd]

theorem step_undecoded {e : DecodeError} (hs : s.stream = .command c bytes :: rest) (hd : decode bytes = .error e) :
    step s = .refused (refusalOf e) := by
  simp [step_command hs, runCommand, hd]

theorem admitted_wrongContext {allowed : Ctx → Bool} (h : allowed s.issuer = false) (k : Answer) :
    admitted allowed s k = .refused .wrongContext := by
  simp [admitted, h]

/-- Every operation is admitted by its row's context before anything else (R75, R77). -/
theorem exec_eq_admitted (i : Instr) (s : State) : ∃ k, exec i s = admitted (mayIssue i) s k := by
  cases i <;> exact ⟨_, rfl⟩

theorem exec_wrongContext (h : mayIssue i s.issuer = false) : exec i s = .refused .wrongContext := by
  obtain ⟨k, hk⟩ := exec_eq_admitted i s
  rw [hk, admitted_wrongContext h]

theorem exec_loadf_wrongProtocol (hs : producerReady s) (hp : s.cfg.proto ≠ .joy) (d : List Byte) :
    exec (.loadf d) s = .refused .wrongProtocol := by
  simp [exec, execLoadf, hs, hp]

/-- Settles O4: the bytes do not decode, or the operation is not admitted. -/
theorem illegalCommandsAreRefused : Obligations.IllegalCommandsAreRefused :=
  ⟨fun _ _ _ tail _ hs hop => step_undecoded hs (decode_reservedOpcode hop tail),
    fun _ _ _ tail _ hs ha => step_undecoded hs (decode_getStick_error ha tail),
    fun _ _ _ tail _ hs hi => step_undecoded hs (decode_getSw_error hi tail),
    fun _ _ _ v tail _ hs hi => step_undecoded hs (decode_setSw_error hi v tail),
    fun _ d hs hp => exec_loadf_wrongProtocol hs hp d,
    fun _ _ h => exec_wrongContext h⟩

/-- Settles O5: `State.taken` and `streamAfter` are the update the statement writes out. -/
theorem stepRunsTheDecodedCommand : Obligations.StepRunsTheDecodedCommand :=
  fun _ _ _ _ _ _ hs hd => step_decoded hs hd

end Machine

end Sys2Proof
end

section
/-! The transition table of R98. Each step of PUSH and LOADF gets one equation per branch; each row is then a whole next
state, read off those equations. -/

namespace Sys2Proof.Machine

variable {s : State} {b : Byte} {d : List Byte} {sel : Selected}

theorem exec_push (hs : producerReady s) (b : Byte) : exec (.push b) s = .next (finish (pushByte b s)) :=
  admitted_producer hs _

theorem exec_loadf (hs : producerReady s) (hp : s.cfg.proto = .joy) (d : List Byte) :
    exec (.loadf d) s = .next (finish (loadFrame d s)) := by
  simp [exec, execLoadf, hs, hp]

theorem exec_reset (hs : environmentReady s) : exec .reset s = .next (resetState s) := by
  simp [exec, execReset, hs, hs.2]

/-! ## The branches of the store step and of a first byte -/

theorem storeStep_overflows (h : s.cfg.frameCap ≤ s.widx) : storeStep b s = overflowed s := if_pos h

theorem storeStep_completes (hc : s.widx < s.cfg.frameCap) (hl : s.widx + 1 = s.frameLen) :
    storeStep b s = returning ((s.store s.widx b).complete (s.widx + 1)) (.completed true) := by
  rw [storeStep, if_neg (Nat.not_le.2 hc), if_pos hl]

theorem storeStep_stores (hc : s.widx < s.cfg.frameCap) (hl : s.widx + 1 ≠ s.frameLen) :
    storeStep b s = returning ((s.store s.widx b).frameAt .filling (s.widx + 1)) (.completed false) := by
  rw [storeStep, if_neg (Nat.not_le.2 hc), if_neg hl]

theorem firstByte_discards (h : frameSelect s.cfg b = none) :
    firstByte b s = reporting s .desync (.completed false) := by
  simp [firstByte, h]

theorem firstByte_accepts (h : frameSelect s.cfg b = some sel) :
    firstByte b s = storeStep b ((s.latch sel.len sel.model).frameAt .filling s.widx) := by
  simp [firstByte, h]

/-! ## The rows of PUSH -/

/-- R93: a byte that cannot start a frame, in EMPTY. -/
theorem exec_push_discarded (hs : producerReady s) (he : s.fsm = .empty) (hsel : frameSelect s.cfg b = none) :
    exec (.push b) s = .next (replied s (.completed false)) := by
  rw [exec_push hs, pushByte_of_empty he, firstByte_discards hsel]
  rfl

/-- R94, R95: the first byte of a frame of several bytes. -/
theorem exec_push_accepted (hs : producerReady s) (he : s.fsm = .empty) (hw : s.widx = 0)
    (hsel : frameSelect s.cfg b = some sel) (hcap : 1 ≤ s.cfg.frameCap) (hlen : 1 < sel.len) :
    exec (.push b) s = .next (replied
      { s with
        fsm := .filling, widx := 1, frameLen := sel.len, model := sel.model.getD s.model
        mem := Memory.write s.mem 0 b } (.completed false)) := by
  rw [exec_push hs, pushByte_of_empty he, firstByte_accepts hsel, hw,
    storeStep_stores (show 0 < s.cfg.frameCap by omega) (show 0 + 1 ≠ sel.len by omega)]
  rfl

/-- R94, R97: the only byte of a frame of one byte. -/
theorem exec_push_wholeFrame (hs : producerReady s) (he : s.fsm = .empty) (hw : s.widx = 0)
    (hsel : frameSelect s.cfg b = some sel) (hcap : 1 ≤ s.cfg.frameCap) (hlen : sel.len = 1) :
    exec (.push b) s = .next (replied
      { s with
        fsm := .full, widx := 1, frameLen := 1, model := sel.model.getD s.model
        mem := Memory.write s.mem 0 b, frameComplete := true, slotPending := true } (.completed true)) := by
  rw [exec_push hs, pushByte_of_empty he, firstByte_accepts hsel, hw, hlen,
    storeStep_completes (show 0 < s.cfg.frameCap by omega) (show 0 + 1 = 1 from rfl)]
  rfl

/-- R96: a byte that finds no room. -/
theorem exec_push_overflows (hs : producerReady s) (hf : s.fsm = .filling) (hcap : s.cfg.frameCap ≤ s.widx) :
    exec (.push b) s = .next (replied { s with fsm := .empty, widx := 0 } (.completed false)) := by
  rw [exec_push hs, pushByte_of_filling hf, storeStep_overflows hcap]
  rfl

/-- R95: a byte of a frame, not the last. -/
theorem exec_push_stores (hs : producerReady s) (hf : s.fsm = .filling) (hcap : s.widx < s.cfg.frameCap)
    (hlen : s.widx + 1 < s.frameLen) :
    exec (.push b) s = .next (replied
      { s with widx := s.widx + 1, mem := Memory.write s.mem s.widx b } (.completed false)) := by
  rw [exec_push hs, pushByte_of_filling hf, storeStep_stores hcap hlen.ne, ← hf]
  rfl

/-- R97: the last byte of a frame. -/
theorem exec_push_completes (hs : producerReady s) (hf : s.fsm = .filling) (hcap : s.widx < s.cfg.frameCap)
    (hlen : s.widx + 1 = s.frameLen) :
    exec (.push b) s = .next (replied
      { s with
        fsm := .full, widx := s.frameLen, mem := Memory.write s.mem s.widx b
        frameComplete := true, slotPending := true } (.completed true)) := by
  rw [exec_push hs, pushByte_of_filling hf, storeStep_completes hcap hlen, hlen]
  rfl

/-- R92: a byte in FULL is examined as in EMPTY. -/
theorem exec_push_of_full (hs : producerReady s) (hf : s.fsm = .full) :
    exec (.push b) s = exec (.push b) { s with fsm := .empty, widx := 0 } := by
  have hempty : pushByte b { s with fsm := .empty, widx := 0 } = firstByte b (s.frameAt .empty 0) :=
    pushByte_of_empty rfl
  rw [exec_push hs, exec_push (by exact hs), pushByte_of_full hf, hempty]

/-! ## The rows of LOADF and of RESET -/

/-- R99: LOADF of a wrong size. -/
theorem exec_loadf_wrongSize (hs : producerReady s) (hp : s.cfg.proto = .joy) (hn : d.length ≠ s.cfg.joyLen) :
    exec (.loadf d) s = .next (replied s (.completed false)) := by
  rw [exec_loadf hs hp, loadFrame, if_pos hn]
  rfl

/-- R99: LOADF of a frame that the buffer cannot hold. -/
theorem exec_loadf_overflows (hs : producerReady s) (hp : s.cfg.proto = .joy) (hn : d.length = s.cfg.joyLen)
    (hcap : s.cfg.frameCap < d.length) :
    exec (.loadf d) s = .next (replied { s with fsm := .empty, widx := 0 } (.completed false)) := by
  rw [exec_loadf hs hp, loadFrame, if_neg (not_not.2 hn), if_pos hcap]
  rfl

/-- R99: LOADF of a whole frame. -/
theorem exec_loadf_delivers (hs : producerReady s) (hp : s.cfg.proto = .joy) (hn : d.length = s.cfg.joyLen)
    (hcap : d.length ≤ s.cfg.frameCap) :
    exec (.loadf d) s = .next (replied
      { s with
        fsm := .full, widx := d.length, frameLen := d.length, mem := Memory.writeAll s.mem 0 d
        frameComplete := true, slotPending := true } (.completed true)) := by
  rw [exec_loadf hs hp, loadFrame, if_neg (not_not.2 hn), if_neg (Nat.not_lt.2 hcap)]
  rfl

/-- The state after RESET holds the table of R30. -/
theorem resetState_resetValues (hs : s.wait = none) : resetValues s (resetState s) := by
  obtain ⟨hlo, hhi⟩ := freeFrameLen_range s.draws
  exact ⟨rfl, rfl, rfl, rfl, rfl, rfl, rfl, rfl, rfl, hlo, hhi, freeModel_lt s.draws,
    wf_freeMemory s.draws s.cfg.frameCap, within_freeMemory s.draws _ _ (Nat.le_refl _), ⟨rfl, rfl, rfl⟩, hs, rfl⟩

/-- R98: no operation but PUSH, LOADF and RESET changes the machine's state or the write index. -/
theorem exec_keeps_fsm_widx {i : Instr} {t : State} (hi : writesFraming i = false) (hr : i ≠ .reset)
    (h : exec i s = .next t) : t.fsm = s.fsm ∧ t.widx = s.widx := by
  obtain ⟨hframing, -⟩ := onlyTheOwnersWrite i s t hr h
  obtain ⟨-, hwidx, -, -, hfsm⟩ := hframing hi
  exact ⟨hfsm, hwidx⟩

/-- Settles O7: the rows above, RESET's values, and the ownership table of R27 for every other operation. -/
theorem pushFollowsTheTransitionTable : Obligations.PushFollowsTheTransitionTable :=
  ⟨fun _ _ hs he _ hsel => exec_push_discarded hs he hsel,
    fun _ _ _ hs he hw hsel hcap hlen => exec_push_accepted hs he hw hsel hcap hlen,
    fun _ _ _ hs he hw hsel hcap hlen => exec_push_wholeFrame hs he hw hsel hcap hlen,
    fun _ _ hs hf hcap => exec_push_overflows hs hf hcap,
    fun _ _ hs hf hcap hlen => exec_push_stores hs hf hcap hlen,
    fun _ _ hs hf hcap hlen => exec_push_completes hs hf hcap hlen,
    fun _ _ hs hf => exec_push_of_full hs hf,
    fun _ _ hs hp hn => exec_loadf_wrongSize hs hp hn,
    fun _ _ hs hp hn hcap => exec_loadf_overflows hs hp hn hcap,
    fun _ _ hs hp hn hcap => exec_loadf_delivers hs hp hn hcap,
    fun _ hs => ⟨_, exec_reset hs, resetState_resetValues hs.2⟩,
    fun _ _ _ hi hr h => exec_keeps_fsm_widx hi hr h⟩

/-- R99: the buffer after bytes are written from offset 0 on. -/
theorem read_writeAll_zero {m : Memory} (h : Memory.wf m = true) (a : Nat) (d : List Byte) :
    Memory.read (Memory.writeAll m 0 d) a = (d[a]?).getD (Memory.read m a) := by
  simp [read_writeAll h]

/-- Settles O11: LOADF's three rows; what is read back after a delivery is what writing bytes in a row leaves. -/
theorem loadfDeliversAWholeFrame : Obligations.LoadfDeliversAWholeFrame := by
  intro d s hs hp hm
  refine ⟨exec_loadf_wrongSize hs hp, exec_loadf_overflows hs hp, fun hn hcap => ?_⟩
  exact ⟨_, exec_loadf_delivers hs hp hn hcap, fun a => read_writeAll_zero hm a d⟩

end Sys2Proof.Machine
end

section
/-! When PUSH returns 1 (R97): a PUSH that completes a frame and one that does not, told apart by the result, the
machine's state and the two bits. -/

namespace Sys2Proof.Machine

variable {s t : State}

/-- The two ways a PUSH can end: with result 1 in FULL and both bits set, or with result 0, not in FULL and neither bit
changed. -/
def PushEnds (s t : State) : Prop :=
  (t = replied { t with results := s.results } (.completed true) ∧ t.fsm = .full
      ∧ t.frameComplete = true ∧ t.slotPending = true)
    ∨ (t = replied { t with results := s.results } (.completed false) ∧ t.fsm ≠ .full
      ∧ t.frameComplete = s.frameComplete ∧ t.slotPending = s.slotPending)

theorem storeStep_ends (b : Byte) (s : State) : PushEnds s (finish (storeStep b s)) := by
  obtain ⟨-, h⟩ | ⟨-, -, h⟩ | ⟨-, -, h⟩ := storeStep_cases b s <;> rw [h]
  · exact .inr ⟨rfl, nofun, rfl, rfl⟩
  · exact .inl ⟨rfl, rfl, rfl, rfl⟩
  · exact .inr ⟨rfl, nofun, rfl, rfl⟩

theorem firstByte_ends (b : Byte) (he : s.fsm = .empty) : PushEnds s (finish (firstByte b s)) := by
  obtain ⟨-, h⟩ | ⟨sel, -, h⟩ := firstByte_cases b s <;> rw [h]
  · exact .inr ⟨rfl, by simp [he], rfl, rfl⟩
  · exact storeStep_ends b _

theorem pushByte_ends (b : Byte) (s : State) : PushEnds s (finish (pushByte b s)) := by
  cases hf : s.fsm with
  | full => rw [pushByte_of_full hf]; exact firstByte_ends b rfl
  | empty => rw [pushByte_of_empty hf]; exact firstByte_ends b hf
  | filling => rw [pushByte_of_filling hf]; exact storeStep_ends b s

/-- R15 (d): the write index is the frame length in FULL and in no other state. -/
theorem BlockInv.full_iff (h : BlockInv s) : s.fsm = .full ↔ s.widx = s.frameLen := by
  have hframing := h.framing
  have hlen := h.length.1
  unfold FramingInv at hframing
  cases hf : s.fsm <;> simp only [hf] at hframing
  case full => simp [hframing.1]
  case empty => simp; omega
  case filling => simp; omega

/-- Settles O9: PUSH returns 1 exactly when it leaves the machine FULL, and by the invariant, which holds after PUSH,
that is exactly when the write index is the frame length. -/
theorem pushCompletesExactlyWhenTheFrameIsFull : Obligations.PushCompletesExactlyWhenTheFrameIsFull := by
  intro b s t hinv h
  obtain ⟨-, -, rfl⟩ := exec_next h
  have hfull := (pushByte_inv b hinv).full_iff
  obtain ⟨hres, hf, hc, hp⟩ | ⟨hres, hf, hc, hp⟩ := pushByte_ends b s
  · exact .inl ⟨hres, hf, hfull.1 hf, hc, hp⟩
  · exact .inr ⟨hres, hf, fun hw => hf (hfull.2 hw), hc, hp⟩

end Sys2Proof.Machine
end

section
/-! FEED (R79): discarded bytes, bytes of a frame, and the bytes that complete it, each as a whole next state. -/

namespace Sys2Proof.Machine

variable {s t : State} {b : Byte} {d : List Byte}

theorem feed_cons (h : exec (.push b) s = .next t) (d : List Byte) : feed (b :: d) s = feed d t := by
  simp [feed, h]

theorem feed_append (h : feed d s = .next t) (e : List Byte) : feed (d ++ e) s = feed e t := by
  induction d generalizing s with
  | nil => cases h; rfl
  | cons b d ih =>
    cases hb : exec (.push b) s with
    | next u =>
      rw [feed_cons hb] at h
      rw [List.cons_append, feed_cons hb, ih h]
    | fault f => simp [feed, hb] at h
    | refused r => simp [feed, hb] at h

/-- The results of `d`'s bytes, none of which completes a frame: a 0 each. -/
def zeros (d : List Byte) : List Reply := d.map fun _ => ⟨.producer, .completed false⟩

theorem replied_zeros (hs : producerReady s) (b : Byte) (d : List Byte) :
    (replied s (.completed false)).results ++ zeros d = s.results ++ zeros (b :: d) := by
  have hi : s.issuer = .producer := hs
  simp [replied, zeros, hi]

/-- R93: bytes that cannot start a frame, in EMPTY. -/
theorem feed_discarded (hs : producerReady s) (he : s.fsm = .empty) (hd : ∀ b ∈ d, frameSelect s.cfg b = none) :
    feed d s = .next { s with results := s.results ++ zeros d } := by
  induction d generalizing s with
  | nil => simp [feed, zeros]
  | cons b d ih =>
    obtain ⟨hb, hd⟩ := List.forall_mem_cons.1 hd
    rw [feed_cons (exec_push_discarded hs he hb), ih (by exact hs) (by exact he) (by exact hd), replied_zeros hs b d]
    rfl

/-- R95: bytes of a frame, the last one not among them. -/
theorem feed_stored (hs : producerReady s) (hf : s.fsm = .filling) (hcap : s.widx + d.length ≤ s.cfg.frameCap)
    (hlen : s.widx + d.length < s.frameLen) :
    feed d s = .next
      { s with
        widx := s.widx + d.length, mem := Memory.writeAll s.mem s.widx d
        results := s.results ++ zeros d } := by
  induction d generalizing s with
  | nil => simp [feed, zeros, Memory.writeAll]
  | cons b d ih =>
    simp only [List.length_cons] at hcap hlen
    have hwidx : s.widx + 1 + d.length = s.widx + (b :: d).length := by simp; omega
    rw [feed_cons (exec_push_stores hs hf (by omega) (by omega)), ih (by exact hs) (by exact hf)
      (show s.widx + 1 + d.length ≤ s.cfg.frameCap by omega) (show s.widx + 1 + d.length < s.frameLen by omega)]
    rw [replied_zeros (by exact hs) b d, ← hwidx]
    rfl

theorem writeAll_append (m : Memory) (a : Nat) (d e : List Byte) :
    Memory.writeAll m a (d ++ e) = Memory.writeAll (Memory.writeAll m a d) (a + d.length) e := by
  induction d generalizing m a with
  | nil => rfl
  | cons b d ih =>
    rw [List.cons_append, Memory.writeAll, ih, Memory.writeAll, List.length_cons, Nat.add_right_comm, Nat.add_assoc]

/-- R95, R97: the missing bytes of a frame that fits the buffer. -/
theorem feed_completes (hs : producerReady s) (hf : s.fsm = .filling) (hcap : s.frameLen ≤ s.cfg.frameCap)
    (hroom : s.widx < s.frameLen) (hlen : s.widx + d.length = s.frameLen) :
    feed d s = .next
      { s with
        fsm := .full, widx := s.frameLen, mem := Memory.writeAll s.mem s.widx d
        frameComplete := true, slotPending := true
        results := s.results ++ zeros d.dropLast ++ [⟨.producer, .completed true⟩] } := by
  have hi : s.issuer = .producer := hs
  obtain rfl | ⟨d, b, rfl⟩ := d.eq_nil_or_concat
  · simp only [List.length_nil] at hlen; omega
  · rw [List.concat_eq_append] at hlen ⊢
    simp only [List.length_append, List.length_singleton] at hlen
    have hstored := feed_stored hs hf (d := d) (by omega) (by omega)
    rw [feed_append hstored, feed_cons (exec_push_completes (by exact hs) (by exact hf)
      (show s.widx + d.length < s.cfg.frameCap by omega) (show s.widx + d.length + 1 = s.frameLen by omega)),
      writeAll_append, List.dropLast_concat]
    simp [feed, replied, Memory.writeAll, hi]

/-- R92: under R15, a byte that does not arrive in FILLING is examined as in EMPTY at index 0. -/
theorem exec_push_of_ne_filling (hinv : FramingInv s) (hs : producerReady s) (hf : s.fsm ≠ .filling) :
    exec (.push b) s = exec (.push b) { s with fsm := .empty, widx := 0 } := by
  cases he : s.fsm with
  | full => exact exec_push_of_full hs he
  | filling => exact absurd he hf
  | empty =>
    have hw : s.widx = 0 := by simpa [FramingInv, he] using hinv
    rw [← he, ← hw]

/-- R92, R94, R95: a byte that can start a frame, in EMPTY or FULL, is the first byte of that frame. -/
theorem exec_push_begins {sel : Selected} (hinv : BlockInv s) (hs : producerReady s) (hf : s.fsm ≠ .filling)
    (hsel : frameSelect s.cfg b = some sel) (hcap : 1 ≤ s.cfg.frameCap) :
    exec (.push b) s = .next (replied
      { s with
        fsm := .filling, widx := 1, frameLen := sel.len, model := sel.model.getD s.model
        mem := Memory.write s.mem 0 b } (.completed false)) := by
  obtain ⟨hlen, -⟩ := frameSelect_some hinv.parameters hsel
  exact (exec_push_of_ne_filling hinv.framing hs hf).trans (exec_push_accepted (by exact hs) rfl rfl hsel hcap hlen)

/-- Settles O10: in FULL, a discarded byte is one in EMPTY (R92). -/
theorem discardedBytesLeaveTheBlockAsItWas : Obligations.DiscardedBytesLeaveTheBlockAsItWas :=
  ⟨fun _ _ hs he hd => feed_discarded hs he hd,
    fun _ _ hs hf hsel => (exec_push_of_full hs hf).trans (exec_push_discarded (by exact hs) rfl hsel)⟩

/-- Settles O12: in FILLING the bytes fed are the missing ones; otherwise the first of them leaves the machine in
FILLING with one byte stored, and the others are the missing ones. -/
theorem feedCompletesTheFrame : Obligations.FeedCompletesTheFrame := by
  constructor
  · intro d s hinv hs hf hcap hlen
    obtain ⟨-, hroom, -⟩ : 1 ≤ s.widx ∧ s.widx < s.frameLen ∧ s.widx ≤ s.cfg.frameCap := by
      simpa [FramingInv, hf] using hinv.framing
    exact ⟨_, feed_completes hs hf hcap hroom (by omega), rfl, rfl, rfl, rfl, rfl, rfl,
      fun a => read_writeAll hinv.canonical s.widx a d⟩
  · intro b d s sel hinv hs hf hsel hcap hlen
    obtain ⟨hlong, -⟩ := frameSelect_some hinv.parameters hsel
    have hfirst := exec_push_begins hinv hs hf hsel (by omega)
    have hfed := (feed_cons hfirst d).trans (feed_completes (by exact hs) rfl hcap (show 1 < sel.len by omega)
      (show 1 + d.length = sel.len by omega))
    exact ⟨_, hfed, rfl, rfl, rfl, rfl, rfl, rfl, fun a => read_writeAll_zero hinv.canonical a (b :: d)⟩

end Sys2Proof.Machine
end

section
/-! DECODE on CH11 (R110 to R114): the entries of the channel array in terms of the buffer's bytes, and the whole next
state. -/

namespace Sys2Proof.Machine

variable {s : State}

/-- DECODE of a pending frame (R170): what the depacketizer of PROTO leaves, and the common end. -/
theorem exec_decode_pending {u : Unpacked} (hs : consumerReady s) (hf : s.frameComplete = true)
    (hu : unpack s = .ok u) : exec .decode s = .next (finish (consumed u)) := by
  simp only [exec, execDecode, admitted_consumer hs, consumeFrame, hf, if_true, hu]

/-- R42, R111: bit `j` of entry `k` below 16, for a buffer that holds the 176-bit string. -/
theorem ch11Channel_bit {k : Nat} (hk : k < 16) (hcap : 24 ≤ s.cfg.frameCap) (j : Nat) :
    (ch11Channel s k).getLsbD j
      = (decide (j < 11) && (s.buf (1 + (11 * k + j) / 8)).getLsbD ((11 * k + j) % 8)) := by
  rw [ch11Channel, if_pos hk, ch11Field_bit s k j hk]
  by_cases hj : j < 11
  · rw [frameByte_of_lt (by omega)]
  · simp [hj]

/-- R112: bit `n` of the flags byte chooses the sentinel at entry `16 + n`. -/
theorem ch11Channel_flag (hcap : 24 ≤ s.cfg.frameCap) (n : Nat) :
    ch11Channel s (16 + n) = if (s.buf 23).getLsbD n then s.cfg.channelHigh else s.cfg.channelLow := by
  rw [ch11Channel, if_neg (by omega), ch11Flags_of_lt hcap, Nat.add_sub_cancel_left, sentinel]

/-- R110, R114, R170: a pending CH11 frame is published, always as VALID. -/
theorem exec_decode_ch11 (hs : consumerReady s) (hp : s.cfg.proto = .ch11) (hf : s.frameComplete = true)
    (hcap : 24 ≤ s.cfg.frameCap) :
    exec .decode s = .next (replied
      { s with
        ch := Vector.ofFn fun k => ch11Channel s k, chCount := 18, stick := ch11Sticks s
        signalLost := (s.buf 23).getLsbD 2, failsafe := (s.buf 23).getLsbD 3
        frameComplete := false, newPacket := true } (.code .valid)) := by
  have hu : unpack s = .ok (decodeCh11 s) := by rw [unpack_ch11 hp, ch11Extent, reading_of_le hcap]
  rw [exec_decode_pending hs hf hu, decodeCh11, ch11Flags_of_lt hcap]
  generalize (Vector.ofFn fun k => ch11Channel s k) = v
  rfl

/-- Settles O24: each published value is one of the whole next state above, and what DECODE does not own is kept. -/
theorem ch11FrameIsPublished : Obligations.Ch11FrameIsPublished := by
  intro s hs hp hf hcap
  have hnext := exec_decode_ch11 hs hp hf hcap
  obtain ⟨hframing, -, -, -, -, -, -, hslot, hqueue, hwait, -, houtside, -⟩ :=
    onlyTheOwnersWrite .decode _ _ nofun hnext
  refine ⟨_, hnext, by simp [replied, hs.1], fun k hk j => ?_, ?_, ?_, rfl, rfl, rfl, ?_, ?_, ?_, ?_, rfl, rfl, rfl,
    hframing rfl, houtside, hslot rfl, hqueue rfl, (hwait rfl).trans hs.2, rfl⟩
  · simpa [replied] using ch11Channel_bit hk hcap j
  · simpa [replied] using ch11Channel_flag hcap 0
  · simpa [replied] using ch11Channel_flag hcap 1
  all_goals simp [replied, ch11Sticks]

end Sys2Proof.Machine
end

section
/-! DECODE on CKM (R120 to R124): the two whole next states, a published word in terms of the buffer's bytes, and what
the checksum test makes of changed bytes (R121). -/

namespace Sys2Proof.Machine

variable {s : State} {m : CkmModel}

/-- R6: the channel words of a well-formed model lie inside its frame. -/
theorem ckmExtent_of_wf (hm : m.wf = true) : ckmExtent m = m.len := by
  obtain ⟨hlen, -, -⟩ := (ckmModel_wf_iff m).1 hm
  rw [ckmExtent]
  omega

/-- R27: what a DECODE, whatever its code, does not own. -/
theorem exec_decode_keeps {t : State} (hs : consumerReady s) (h : exec .decode s = .next t) :
    sameFraming s t ∧ sameOutside s t ∧ t.slotPending = s.slotPending ∧ t.qCount = s.qCount ∧ t.wait = none := by
  obtain ⟨hframing, -, -, -, -, -, -, hslot, hqueue, hwait, -, houtside, -⟩ :=
    onlyTheOwnersWrite .decode _ _ nofun h
  exact ⟨hframing rfl, houtside, hslot rfl, hqueue rfl, (hwait rfl).trans hs.2⟩

/-! ## The whole next state, in a buffer of any size -/

section
variable (hs : consumerReady s) (hp : s.cfg.proto = .ckm) (hf : s.frameComplete = true)
  (hmod : s.cfg.ckmModels[s.model]? = some m)
include hs hp hf hmod

/-- R120, R122, R123: the checksum test is met. The draw counter moves past the 18 free values and past the bytes the
buffer does not have (log 16, log 20). -/
theorem exec_decode_ckm_valid (hpass : ckmPasses s m = true) :
    exec .decode s = .next (replied
      { s with
        ch := Vector.ofFn fun k => ckmChannel s m k, chCount := m.nch, stick := ckmSticks s m
        frameComplete := false, newPacket := true
        draws := s.draws + 18 + (ckmExtent m - s.cfg.frameCap) } (.code .valid)) := by
  rw [exec_decode_pending hs hf (unpack_ckm hp hmod), decodeCkm, if_pos hpass]
  simp only [finish_consumed, reading_fst, reading_snd, replied, State.reply, State.setNew, State.setComplete,
    State.drawn, State.setSticks, State.setChannels, beq_self_eq_true, Bool.true_or]

/-- R124: the checksum test is not met. -/
theorem exec_decode_ckm_invalid (hpass : ckmPasses s m = false) :
    exec .decode s = .next (replied
      { s with frameComplete := false, draws := s.draws + (ckmExtent m - s.cfg.frameCap) } (.code .invalid)) := by
  rw [exec_decode_pending hs hf (unpack_ckm hp hmod), decodeCkm, if_neg (Bool.eq_false_iff.1 hpass)]
  rfl

/-- R124: the checksum of a frame inside the buffer fails; no free value is drawn. -/
theorem exec_decode_ckm_checksumFails (hm : m.wf = true) (hcap : m.len ≤ s.cfg.frameCap)
    (hsum : ¬ckmChecksumHolds s m) :
    exec .decode s = .next (replied { s with frameComplete := false } (.code .invalid)) := by
  have hpass : ckmPasses s m = false := Bool.eq_false_iff.2 (mt (ckmPasses_iff s hm hcap).1 hsum)
  have hdraws : ckmExtent m - s.cfg.frameCap = 0 := by rw [ckmExtent_of_wf hm]; omega
  rw [exec_decode_ckm_invalid hs hp hf hmod hpass, hdraws]
  rfl

end

/-! ## What is published -/

/-- R64, R122: an entry below `nch`, where its word lies inside the buffer. -/
theorem ckmChannel_toNat {k : Nat} (hk : k < m.nch) (hcap : m.off + 2 * k + 1 < s.cfg.frameCap) :
    (ckmChannel s m k).toNat = (s.buf (m.off + 2 * k)).toNat + 256 * (s.buf (m.off + 2 * k + 1)).toNat := by
  rw [ckmChannel, if_pos hk, ckmWord, halfAt_of_lt hcap, le16_toNat]

/-- R123: with four channels or more, the sticks are CHAN_TO_STICK of the first four entries. -/
theorem ckmSticks_of_le (h : 4 ≤ m.nch) :
    ckmSticks s m =
      { roll := Config.chanToStick (ckmChannel s m 0), pitch := Config.chanToStick (ckmChannel s m 1)
        throttle := Config.chanToStick (ckmChannel s m 2), yaw := Config.chanToStick (ckmChannel s m 3) } := by
  have hword : ∀ k < 4, ckmChannel s m k = ckmWord s m k := fun k hk => if_pos (by omega)
  rw [ckmSticks, if_pos h, hword 0 (by omega), hword 1 (by omega), hword 2 (by omega), hword 3 (by omega)]

/-- R123: with fewer than four channels no stick changes. -/
theorem ckmSticks_of_lt (h : m.nch < 4) : ckmSticks s m = s.stick := if_neg (by omega)

/-- Settles O25: the first whole next state above, read entry by entry; what DECODE does not own is kept. -/
theorem ckmFrameIsPublished : Obligations.CkmFrameIsPublished := by
  intro s m hs hp hf hmod hm hcap hsum
  obtain ⟨hlen, -, -⟩ := (ckmModel_wf_iff m).1 hm
  have hnext := exec_decode_ckm_valid hs hp hf hmod ((ckmPasses_iff s hm hcap).2 hsum)
  refine ⟨_, hnext, by simp [replied, hs.1], fun k hk => ?_, rfl, fun h => ?_, fun h => ckmSticks_of_lt h,
    rfl, rfl, rfl, rfl, rfl, exec_decode_keeps hs hnext⟩
  · simpa [replied] using ckmChannel_toNat hk (by omega)
  · simp [replied, ckmSticks_of_le h]

/-- Settles O26: the free bytes beyond the buffer decide the test, and each outcome has its whole next state above;
INVALID too draws a free value, for there is a byte beyond the buffer. -/
theorem ckmFrameBeyondTheBufferCompletes : Obligations.CkmFrameBeyondTheBufferCompletes := by
  intro s m hs hp hf hmod hm hcap
  cases hpass : ckmPasses s m with
  | true =>
    have hnext := exec_decode_ckm_valid hs hp hf hmod hpass
    refine ⟨_, .valid, hnext, by simp [replied, hs.1], .inl rfl, fun _ => ⟨rfl, fun k hk hword => ?_⟩, nofun, rfl,
      ?_, rfl, rfl, rfl, exec_decode_keeps hs hnext⟩
    · simpa [replied] using ckmChannel_toNat hk hword
    · show s.draws < s.draws + 18 + (ckmExtent m - s.cfg.frameCap)
      omega
  | false =>
    have hnext := exec_decode_ckm_invalid hs hp hf hmod hpass
    have hdraws : 0 < ckmExtent m - s.cfg.frameCap := by rw [ckmExtent_of_wf hm]; omega
    exact ⟨_, .invalid, hnext, by simp [replied, hs.1], .inr rfl, nofun,
      fun _ => ⟨⟨rfl, rfl, rfl, rfl, rfl, rfl⟩, rfl⟩, rfl, Nat.lt_add_of_pos_right hdraws,
      rfl, rfl, rfl, exec_decode_keeps hs hnext⟩

/-- Settles O27: the whole next state of a checksum failure. -/
theorem ckmChecksumFailureRetains : Obligations.CkmChecksumFailureRetains :=
  fun _ _ hs hp hf hmod hm hcap hsum => exec_decode_ckm_checksumFails hs hp hf hmod hm hcap hsum

/-! ## The checksum after bytes are replaced (R121) -/

/-- The checksum field a sum asks for: `expect` of R65 as a number. -/
def expectedNat : CsumMode → Nat → Nat
  | .sum, n => n % 65536
  | .notSum, n => 65535 - n % 65536
  | .negSum, n => (65536 - n % 65536) % 65536

theorem ckmChecksumHolds_iff (s : State) (m : CkmModel) :
    ckmChecksumHolds s m ↔
      (s.buf (m.len - 2)).toNat + 256 * (s.buf (m.len - 1)).toNat
        = expectedNat s.cfg.csumMode (bufferSum s (m.len - 2)) := by
  unfold ckmChecksumHolds
  cases s.cfg.csumMode <;> rfl

/-- In every mode, two sums ask for the same field only if they agree modulo `2^16`. -/
theorem mod_eq_of_expectedNat_eq {mode : CsumMode} {a b : Nat} (h : expectedNat mode a = expectedNat mode b) :
    a % 65536 = b % 65536 := by
  cases mode <;> simp only [expectedNat] at h <;> omega

/-- A byte before the field moves the sum by less than `2^16` and not by 0; a byte of the field moves the field. -/
theorem not_ckmChecksumHolds_store (hm : m.wf = true) (hw : Memory.wf s.mem = true) (hsum : ckmChecksumHolds s m)
    {j : Nat} {b : Byte} (hj : j < m.len) (hb : b ≠ s.buf j) : ¬ckmChecksumHolds (s.store j b) m := by
  obtain ⟨hlen, -, -⟩ := (ckmModel_wf_iff m).1 hm
  have hne : b.toNat ≠ (s.buf j).toNat := fun h => hb (BitVec.eq_of_toNat_eq h)
  rw [ckmChecksumHolds_iff] at hsum ⊢
  rw [buf_store hw, buf_store hw, store_cfg]
  intro hsum'
  by_cases hfield : m.len - 2 ≤ j
  · rw [bufferSum_store_ge hw hfield, ← hsum] at hsum'
    obtain rfl | rfl : j = m.len - 2 ∨ j = m.len - 1 := by omega
    · rw [if_pos rfl, if_neg (by omega)] at hsum'
      omega
    · rw [if_pos rfl, if_neg (by omega)] at hsum'
      omega
  · rw [if_neg (by omega), if_neg (by omega), hsum] at hsum'
    have hmod := mod_eq_of_expectedNat_eq hsum'
    have hmoved := bufferSum_store hw (show j < m.len - 2 by omega) b
    have := b.isLt
    have := (s.buf j).isLt
    omega

/-- Two bytes before the field, replaced so that their sum is kept: sum and field stay. -/
theorem ckmChecksumHolds_store_store (hw : Memory.wf s.mem = true) (hsum : ckmChecksumHolds s m) {i j : Nat}
    {b c : Byte} (hi : i < m.len - 2) (hj : j < m.len - 2) (hij : i ≠ j)
    (hbc : b.toNat + c.toNat = (s.buf i).toNat + (s.buf j).toNat) :
    ckmChecksumHolds ((s.store i b).store j c) m := by
  have hw' : Memory.wf (s.store i b).mem = true := wf_write i b hw
  have hfield : ∀ a, m.len - 2 ≤ a → ((s.store i b).store j c).buf a = s.buf a := fun a ha => by
    rw [buf_store hw', if_neg (by omega), buf_store hw, if_neg (by omega)]
  have hkept : bufferSum ((s.store i b).store j c) (m.len - 2) = bufferSum s (m.len - 2) := by
    have h1 := bufferSum_store hw hi b
    have h2 := bufferSum_store hw' hj c
    rw [buf_store hw, if_neg (Ne.symm hij)] at h2
    omega
  rw [ckmChecksumHolds_iff] at hsum ⊢
  rw [hfield _ (Nat.le_refl _), hfield _ (by omega), hkept]
  exact hsum

/-- Settles O28: the changed frame fails the test, so DECODE ends as in O27; the pair of changes keeps the sum. -/
theorem ckmSingleByteChangeIsDetected : Obligations.CkmSingleByteChangeIsDetected := by
  intro s m hs hp hf hmod hm hcap hw hsum
  refine ⟨fun j b hj hb => ?_, fun i j b c hi hj hij hbc => ckmChecksumHolds_store_store hw hsum hi hj hij hbc⟩
  have hfails : ¬ckmChecksumHolds (s.store j b) m := not_ckmChecksumHolds_store hm hw hsum hj hb
  have hnext := exec_decode_ckm_checksumFails (s := s.store j b) hs hp hf hmod hm hcap hfails
  exact ⟨_, hnext, by simp [replied, hs.1], ⟨rfl, rfl, rfl, rfl, rfl, rfl⟩, rfl⟩

end Sys2Proof.Machine
end

section
/-! DECODE on JOY (R130 to R135): the three whole next states, a published stick in terms of the buffer's bytes, and
the switch bank after the five flags. -/

namespace Sys2Proof.Machine

variable {s : State}

/-! ## The whole next state -/

section
variable (hs : consumerReady s) (hp : s.cfg.proto = .joy) (hf : s.frameComplete = true) (hcap : 25 ≤ s.cfg.frameCap)
include hs hp hf hcap

/-- R130, R170: on a buffer that holds the frame, DECODE ends with what `decode_JOY` answers. -/
theorem exec_decode_joy : exec .decode s = .next (finish (consumed (decodeJoy s))) :=
  exec_decode_pending hs hf (by rw [unpack_joy hp, joyExtent, reading_of_le hcap])

/-- R131, R135: the checksum fails, whatever the identity. -/
theorem exec_decode_joy_checksumFails (hsum : ¬joyChecksumHolds s) :
    exec .decode s = .next (replied { s with frameComplete := false } (.code .invalid)) := by
  have hfield : joyField s ≠ joySum s := mt (joyPasses_iff s hcap).1 hsum
  rw [exec_decode_joy hs hp hf hcap, decodeJoy, if_pos hfield]
  rfl

/-- R132, R135: the checksum holds and the identity is another. -/
theorem exec_decode_joy_otherIdentity (hsum : joyChecksumHolds s) (hid : ¬joyIdentityHolds s) :
    exec .decode s = .next (replied { s with frameComplete := false } (.code .foreign)) := by
  have hfield : ¬joyField s ≠ joySum s := not_not.2 ((joyPasses_iff s hcap).2 hsum)
  have hother : ¬joyIdentity s = true := mt (joyIdentity_iff s (by omega)).1 hid
  rw [exec_decode_joy hs hp hf hcap, decodeJoy, if_neg hfield, if_neg hother]
  rfl

/-- R130, R133, R134: the checksum and the identity hold. The draw counter moves past the four free values (log 20). -/
theorem exec_decode_joy_valid (hsum : joyChecksumHolds s) (hid : joyIdentityHolds s) :
    exec .decode s = .next (replied
      { s with
        stick := joySticks s, switchBank := joySwitches s, frameComplete := false, newPacket := true
        draws := s.draws + 4 } (.code .valid)) := by
  have hfield : ¬joyField s ≠ joySum s := not_not.2 ((joyPasses_iff s hcap).2 hsum)
  have hsame : joyIdentity s = true := (joyIdentity_iff s (by omega)).2 hid
  rw [exec_decode_joy hs hp hf hcap, decodeJoy, if_neg hfield, if_pos hsame]
  simp only [finish_consumed, replied, State.reply, State.setNew, State.setComplete, State.drawn, State.setSwitches,
    State.setSticks, beq_self_eq_true, Bool.true_or]

end

/-- Settles O30: the two whole next states of a rejected frame. -/
theorem joyBadFrameRetains : Obligations.JoyBadFrameRetains :=
  fun _ hs hp hf hcap =>
    ⟨exec_decode_joy_checksumFails hs hp hf hcap, exec_decode_joy_otherIdentity hs hp hf hcap⟩

/-! ## What is published -/

/-- R67, R133: where the converter is defined on the field at offset `o`, no free value is used. -/
theorem joyStick_of_some {o : Nat} {v : Word} (hcap : o + 3 < s.cfg.frameCap)
    (h : bitsToFixed s.cfg.fixFracBits (le32 (s.buf o) (s.buf (o + 1)) (s.buf (o + 2)) (s.buf (o + 3))) = some v)
    (n : Nat) : joyStick s o n = v := by
  rw [joyStick, wordAt_of_lt hcap, h, settled, Option.getD_some]

/-- R6: no two flags share a switch. -/
theorem joySwIdx_inj_of_config_wf {c : Config} (h : c.wf = true) {j k : Fin 5} :
    c.joySwIdx[j] = c.joySwIdx[k] ↔ j = k := by
  have hnodup : c.joySwIdx.toList.Nodup := by
    simp only [Config.wf, Bool.and_eq_true, decide_eq_true_eq] at h
    obtain ⟨⟨-, hnodup⟩, -⟩ := h
    exact hnodup
  have := hnodup.getElem_inj_iff (i := j.val) (j := k.val) (hi := by simp) (hj := by simp)
  simpa [Fin.ext_iff] using this

theorem getSwitch_writeFlag (s : State) (bank : Word) (k : Fin 5) (i : Fin 16) :
    getSwitch (writeFlag s bank k) i
      = if i = s.cfg.joySwIdx[k] then joyFlagValue s.cfg k (joyFlag s k.val) else getSwitch bank i :=
  getSwitch_setSwitch bank s.cfg.joySwIdx[k] i _

/-- A switch that no flag of the list maps to is kept. -/
theorem getSwitch_foldl_writeFlag_of_unmapped {i : Fin 16} {l : List (Fin 5)}
    (h : ∀ k ∈ l, s.cfg.joySwIdx[k] ≠ i) (bank : Word) :
    getSwitch (l.foldl (writeFlag s) bank) i = getSwitch bank i := by
  induction l generalizing bank with
  | nil => rfl
  | cons k l ih =>
    obtain ⟨hk, hl⟩ := List.forall_mem_cons.1 h
    rw [List.foldl_cons, ih hl, getSwitch_writeFlag, if_neg (Ne.symm hk)]

/-- A flag of the list is read back from its switch: the flags after it map to other switches. -/
theorem getSwitch_foldl_writeFlag_of_mem (hw : s.cfg.wf = true) {k : Fin 5} {l : List (Fin 5)} (h : k ∈ l)
    (bank : Word) :
    getSwitch (l.foldl (writeFlag s) bank) s.cfg.joySwIdx[k] = joyFlagValue s.cfg k (joyFlag s k.val) := by
  induction l generalizing bank with
  | nil => cases h
  | cons j l ih =>
    rw [List.foldl_cons]
    by_cases hl : k ∈ l
    · exact ih hl _
    · obtain rfl : k = j := (List.mem_cons.1 h).resolve_right hl
      have hother : ∀ i ∈ l, s.cfg.joySwIdx[i] ≠ s.cfg.joySwIdx[k] := fun i hi he =>
        hl ((joySwIdx_inj_of_config_wf hw).1 he ▸ hi)
      rw [getSwitch_foldl_writeFlag_of_unmapped hother, getSwitch_writeFlag, if_pos rfl]

/-- R134: the five flags are written in their order. -/
theorem joySwitches_eq_foldl (s : State) : joySwitches s = (List.finRange 5).foldl (writeFlag s) s.switchBank := rfl

theorem getSwitch_joySwitches_mapped (hw : s.cfg.wf = true) (hcap : 25 ≤ s.cfg.frameCap) (k : Fin 5) :
    getSwitch (joySwitches s) s.cfg.joySwIdx[k] = joyFlagValue s.cfg k (s.buf (19 + k.val)) := by
  rw [joySwitches_eq_foldl, getSwitch_foldl_writeFlag_of_mem hw (List.mem_finRange k), joyFlag_of_lt (by omega)]

theorem getSwitch_joySwitches_unmapped {i : Fin 16} (h : ∀ k : Fin 5, s.cfg.joySwIdx[k] ≠ i) :
    getSwitch (joySwitches s) i = getSwitch s.switchBank i := by
  rw [joySwitches_eq_foldl, getSwitch_foldl_writeFlag_of_unmapped fun k _ => h k]

/-- Settles O29: the whole next state of an accepted frame, its sticks and switches read one by one; what DECODE does
not own is kept. -/
theorem joyFrameIsPublished : Obligations.JoyFrameIsPublished := by
  intro s hs hw hp hf hcap hsum hid
  have hnext := exec_decode_joy_valid hs hp hf hcap hsum hid
  refine ⟨_, hnext, by simp [replied, hs.1], fun v hv => ?yaw, fun v hv => ?throttle, fun v hv => ?roll,
    fun v hv => ?pitch, getSwitch_joySwitches_mapped hw hcap, fun _ hi => getSwitch_joySwitches_unmapped hi,
    rfl, rfl, rfl, rfl, rfl, rfl, exec_decode_keeps hs hnext⟩
  case yaw => exact joyStick_of_some (o := 3) (by omega) hv s.draws
  case throttle => exact joyStick_of_some (o := 7) (by omega) hv (s.draws + 1)
  case roll => exact joyStick_of_some (o := 11) (by omega) hv (s.draws + 2)
  case pitch =>
    have hfield : joyStick s 15 (s.draws + 3) = v := joyStick_of_some (by omega) hv _
    simp [replied, joySticks, hfield]

end Sys2Proof.Machine
end

section
/-! BITS2FIX (44_fixed_point.md): the converter's three cases, and the next state when its result is defined and when it
is not. -/

namespace Sys2Proof.Machine

variable {F : Nat} {x : Word} {s : State}

/-! ## The converter -/

/-- R141. -/
theorem bitsToFixed_of_exponent_zero (he : exponent x = 0) : bitsToFixed F x = some 0 := if_pos he

/-- R144. -/
theorem bitsToFixed_of_shift_neg (he : exponent x ≠ 0) (hneg : shiftAmount F x < 0) : bitsToFixed F x = none := by
  rw [bitsToFixed, if_neg he, if_neg (by omega), if_neg (by omega)]

/-- R142, R143: one quotient covers both shifts, for a shift of 24 or more leaves nothing of a 24-bit mantissa. -/
theorem bitsToFixed_of_shift_nonneg (he : exponent x ≠ 0) (hnonneg : 0 ≤ shiftAmount F x) :
    ∃ mag : Word, bitsToFixed F x = some (signed x mag)
      ∧ mag.toNat = (mantissa x).toNat / 2 ^ (shiftAmount F x).toNat := by
  rw [bitsToFixed, if_neg he]
  by_cases hlarge : 24 ≤ shiftAmount F x
  · have hpow : 2 ^ 24 ≤ 2 ^ (shiftAmount F x).toNat := Nat.pow_le_pow_right (by norm_num) (by omega)
    exact ⟨0, if_pos hlarge, (Nat.div_eq_of_lt ((mantissa x).isLt.trans_le hpow)).symm⟩
  · refine ⟨_, by rw [if_neg hlarge, if_pos hnonneg], ?_⟩
    rw [BitVec.toNat_setWidth_of_le (by norm_num), BitVec.toNat_ushiftRight, Nat.shiftRight_eq_div_pow]

/-- R142, R143, R145: the result as a signed number. -/
theorem bitsToFixed_toInt (he : exponent x ≠ 0) (hnonneg : 0 ≤ shiftAmount F x) :
    ∃ v, bitsToFixed F x = some v
      ∧ v.toInt = (if 2 ^ 31 ≤ x.toNat then -1 else 1)
          * (((2 ^ 23 + x.toNat % 2 ^ 23) / 2 ^ (shiftAmount F x).toNat : Nat) : Int) := by
  obtain ⟨mag, hv, hmag⟩ := bitsToFixed_of_shift_nonneg he hnonneg
  have hlt : mag.toNat < 2 ^ 24 := hmag ▸ (Nat.div_le_self _ _).trans_lt (mantissa x).isLt
  exact ⟨_, hv, by rw [signed_toInt x mag hlt, hmag, mantissa_toNat]⟩

/-! ## The operation -/

theorem exec_bits2fix (hs : eitherReady s) (x : Word) : exec (.bits2fix x) s = .next (finish (convert x s)) :=
  admitted_either hs _

/-- R140: a defined result draws no free value. -/
theorem exec_bits2fix_of_some {v : Word} (hs : eitherReady s) (hv : bitsToFixed s.cfg.fixFracBits x = some v) :
    exec (.bits2fix x) s = .next (replied s (.fixed v)) := by
  rw [exec_bits2fix hs, convert, hv]
  rfl

/-- R144: the result is the next free value (log 6). -/
theorem exec_bits2fix_of_none (hs : eitherReady s) (hv : bitsToFixed s.cfg.fixFracBits x = none) :
    exec (.bits2fix x) s
      = .next (replied { s with draws := s.draws + 1 } (.fixed (Config.freeWord s.draws))) := by
  rw [exec_bits2fix hs, convert, hv]
  rfl

/-- Settles O31: the converter's three cases, each handed to its next state. -/
theorem bits2fixConverts : Obligations.Bits2fixConverts := by
  rintro x s _ _ _ hs rfl rfl rfl
  rw [← exponent_eq]
  refine ⟨fun he => exec_bits2fix_of_some hs (bitsToFixed_of_exponent_zero he), fun he hnonneg => ?_,
    fun he hneg => ⟨_, exec_bits2fix_of_none hs (bitsToFixed_of_shift_neg he hneg)⟩⟩
  obtain ⟨v, hv, hint⟩ := bitsToFixed_toInt he hnonneg
  exact ⟨v, exec_bits2fix_of_some hs hv, hint⟩

/-- Settles O32: the converter is evaluated on the four patterns. -/
theorem bits2fixOfTheSourcesFloats : Obligations.Bits2fixOfTheSourcesFloats := by
  intro s hs hF
  have hnext {x v : Word} (hv : bitsToFixed 11 x = some v) : exec (.bits2fix x) s = .next (replied s (.fixed v)) :=
    exec_bits2fix_of_some hs (hF ▸ hv)
  exact ⟨hnext (by decide), hnext (by decide), hnext (by decide), hnext (by decide)⟩

end Sys2Proof.Machine
end

section
/-! The handoff (45_handoff.md): the posts, a wait as it is issued and as it goes on, each as a whole next state; who is
refused while a wait blocks; and that the producer never is. -/

namespace Sys2Proof.Machine

variable {s : State} {p : Primitive} {w : Wait} {i : Instr} {rest : List Event}

/-! ## The posts -/

theorem exec_sigSlot (hs : producerReady s) : exec .sigSlot s = .next (s.setSlot true) :=
  admitted_producer hs _

theorem exec_sigQ (hs : producerReady s) : exec .sigQ s = .next (postQueue s) :=
  admitted_producer hs _

theorem postQueue_counts (h : s.qCount < s.cfg.qDepth) : postQueue s = s.setQueue (s.qCount + 1) := if_pos h

/-- R154: a post to a full queue is dropped. -/
theorem postQueue_drops (h : s.cfg.qDepth ≤ s.qCount) : postQueue s = s := if_neg (Nat.not_lt.2 h)

/-- Settles O14: SIG_SLOT is the one update `setSlot`. -/
theorem sigSlotPosts : Obligations.SigSlotPosts :=
  fun _ hs => exec_sigSlot hs

/-- Settles O15: the two branches of a post to the queue. -/
theorem sigQPostsUpToItsDepth : Obligations.SigQPostsUpToItsDepth := by
  intro s hs
  rw [exec_sigQ hs]
  exact ⟨fun h => congrArg _ (postQueue_counts h), fun h => congrArg _ (postQueue_drops h)⟩

/-! ## How a wait ends -/

theorem holdsPost_queue_of_pos (h : 0 < s.qCount) : holdsPost .queue s = true := decide_eq_true h

theorem holdsPost_queue_of_zero (h : s.qCount = 0) : holdsPost .queue s = false := by
  simp [holdsPost, h]

/-- R156: a post beats an expiry. -/
theorem waitEnds_of_post (h : holdsPost p s = true) (expired : Bool) :
    waitEnds p expired s = some (returning (takePost p s) (.signaled true)) := if_pos h

theorem waitEnds_of_expiry (h : holdsPost p s = false) : waitEnds p true s = some (returning s (.signaled false)) := by
  simp [waitEnds, h]

theorem waitEnds_of_neither (h : holdsPost p s = false) : waitEnds p false s = none := by
  simp [waitEnds, h]

/-! ## A wait as it is issued -/

theorem exec_waitSlot (hs : consumerReady s) (t : Word) : exec (.waitSlot t) s = .next (waitOn .slot t s) :=
  admitted_consumer hs _

theorem exec_waitQ (hs : consumerReady s) (t : Word) : exec (.waitQ t) s = .next (waitOn .queue t s) :=
  admitted_consumer hs _

theorem waitOn_takes (h : holdsPost p s = true) (t : Word) :
    waitOn p t s = finish (returning (takePost p s) (.signaled true)) := by
  rw [waitOn, waitEnds_of_post h]

theorem waitOn_timesOut (h : holdsPost p s = false) : waitOn p 0 s = replied s (.signaled false) := by
  have hend : waitEnds p ((0 : Word) == 0) s = some (returning s (.signaled false)) := waitEnds_of_expiry h
  rw [waitOn, hend]
  rfl

theorem waitOn_blocks (h : holdsPost p s = false) {t : Word} (ht : t ≠ 0) :
    waitOn p t s = s.setWait (some ⟨p, false⟩) := by
  rw [waitOn, beq_eq_false_iff_ne.2 ht, waitEnds_of_neither h]

/-- Settles O16: the three ways of a wait, on the slot. -/
theorem waitSlotTakesThePost : Obligations.WaitSlotTakesThePost := by
  intro t s hs
  rw [exec_waitSlot hs]
  refine ⟨fun hpost => ?_, fun hnone ht => ?_, fun hnone ht => ?_⟩
  · exact congrArg _ (waitOn_takes (p := .slot) hpost t)
  · rw [ht, waitOn_timesOut (p := .slot) hnone]
  · exact congrArg _ (waitOn_blocks (p := .slot) hnone ht)

/-- Settles O17: the three ways of a wait, on the queue. -/
theorem waitQTakesAPost : Obligations.WaitQTakesAPost := by
  intro t s hs
  rw [exec_waitQ hs]
  refine ⟨fun hpost => ?_, fun hzero ht => ?_, fun hzero ht => ?_⟩
  · exact congrArg _ (waitOn_takes (holdsPost_queue_of_pos hpost) t)
  · rw [ht, waitOn_timesOut (holdsPost_queue_of_zero hzero)]
  · exact congrArg _ (waitOn_blocks (holdsPost_queue_of_zero hzero) ht)

/-! ## A blocked wait -/

theorem step_expire (hs : s.stream = .expire :: rest) : step s = declareExpired (s.taken .environment rest) := by
  simp [step, takeEvent, hs]

theorem step_resume (hs : s.stream = .resume :: rest) : step s = resumeWait (s.taken .consumer rest) := by
  simp [step, takeEvent, hs]

theorem declareExpired_blocked (hw : s.wait = some w) :
    declareExpired s = .next (s.setWait (some ⟨w.prim, true⟩)) := by
  simp [declareExpired, hw]

theorem resumeWait_takes (hw : s.wait = some w) (h : holdsPost w.prim s = true) :
    resumeWait s = .next ((finish (returning (takePost w.prim s) (.signaled true))).setWait none) := by
  simp only [resumeWait, hw, waitEnds_of_post h]

theorem resumeWait_timesOut (hw : s.wait = some w) (h : holdsPost w.prim s = false) (hx : w.expired = true) :
    resumeWait s = .next ((replied s (.signaled false)).setWait none) := by
  simp only [resumeWait, hw, hx, waitEnds_of_expiry h]
  rfl

theorem resumeWait_staysBlocked (hw : s.wait = some w) (h : holdsPost w.prim s = false) (hx : w.expired = false) :
    resumeWait s = .next s := by
  simp only [resumeWait, hw, hx, waitEnds_of_neither h]

/-- Taking an event from the stream posts nothing. -/
@[simp] theorem holdsPost_taken (p : Primitive) (s : State) (c : Ctx) (rest : List Event) :
    holdsPost p (s.taken c rest) = holdsPost p s := by
  cases p <;> rfl

/-- Settles O18: an expiry is recorded, and a completion moment goes one of the ways a wait ends. -/
theorem blockedWaitCompletes : Obligations.BlockedWaitCompletes := by
  rintro s ⟨p, x⟩ rest hw
  have hwait (c : Ctx) : (s.taken c rest).wait = some ⟨p, x⟩ := hw
  refine ⟨fun hs => ?_, fun hs hp hpost => ?_, fun hs hp hpost => ?_, fun hs hnone hx => ?_, fun hs hnone hx => ?_⟩
  · rw [step_expire hs, declareExpired_blocked (hwait _)]
    rfl
  · cases hp
    rw [step_resume hs, resumeWait_takes (hwait _) hpost]
    rfl
  · cases hp
    rw [step_resume hs, resumeWait_takes (hwait _) (holdsPost_queue_of_pos hpost)]
    rfl
  · rw [step_resume hs, resumeWait_timesOut (hwait _) (by simpa using hnone) hx]
    rfl
  · rw [step_resume hs, resumeWait_staysBlocked (hwait _) (by simpa using hnone) hx]
    rfl

/-! ## Who is refused beside a blocked wait, and who is not -/

theorem admitted_consumerBlocked {allowed : Ctx → Bool} (ha : allowed .consumer = true) (hi : s.issuer = .consumer)
    (hw : s.wait.isSome = true) (k : Answer) : admitted allowed s k = .refused .consumerBlocked := by
  simp [admitted, ha, hi, hw]

theorem exec_reset_inFlight (hi : s.issuer = .environment) (hw : s.wait.isSome = true) :
    exec .reset s = .refused .resetInFlight := by
  simp [exec, execReset, admitted, byEnvironment, hi, hw]

/-- Settles O19: the consumer is stopped as its operation is admitted (R156), RESET by its own test (R217). -/
theorem blockedConsumerIssuesNothing : Obligations.BlockedConsumerIssuesNothing := by
  refine ⟨fun i s hw hi ha => ?_, fun s hw hi => exec_reset_inFlight hi hw⟩
  obtain ⟨k, hk⟩ := exec_eq_admitted i s
  rw [hk, admitted_consumerBlocked ha hi hw]

/-- R157: no test of the primitives or of the consumer stands before a producer operation. -/
theorem exec_completes_of_producer (hs : producerReady s) (hi : mayIssue i .producer = true)
    (hjoy : ∀ d, i = .loadf d → s.cfg.proto = .joy) : ∃ t, exec i s = .next t := by
  cases i
  case push b => exact ⟨_, exec_push hs b⟩
  case loadf d => exact ⟨_, exec_loadf hs (hjoy d rfl) d⟩
  case sigSlot => exact ⟨_, exec_sigSlot hs⟩
  case sigQ => exact ⟨_, exec_sigQ hs⟩
  case bits2fix x => exact ⟨_, exec_bits2fix (.inl hs) x⟩
  -- The rest the producer may not issue.
  all_goals cases hi

theorem canBlock_eq_false_of_producer (hi : mayIssue i .producer = true) : canBlock i = false := by
  cases i
  case waitSlot => cases hi
  case waitQ => cases hi
  all_goals rfl

theorem exec_keeps_wait {t : State} (hi : canBlock i = false) (hr : i ≠ .reset) (h : exec i s = .next t) :
    t.wait = s.wait := by
  obtain ⟨-, -, -, -, -, -, -, -, -, hwait, -⟩ := onlyTheOwnersWrite i s t hr h
  exact hwait hi

/-- Settles O20: a producer operation completes, and by R27 only the two waits can change whether the consumer is
blocked. -/
theorem producerIsNeverBlocked : Obligations.ProducerIsNeverBlocked := by
  intro i s hs hi hjoy
  obtain ⟨t, ht⟩ := exec_completes_of_producer hs hi hjoy
  have hreset : i ≠ .reset := by rintro rfl; cases hi
  exact ⟨t, ht, exec_keeps_wait (canBlock_eq_false_of_producer hi) hreset ht⟩

end Sys2Proof.Machine
end

section
/-! DECODE on any protocol (R170): with no frame pending, with one, and issued again at once. -/

namespace Sys2Proof.Machine

variable {s t : State} {m : CkmModel} {u : Unpacked}

/-- R170: with no frame pending nothing but the result is written. -/
theorem exec_decode_none (hs : consumerReady s) (hf : s.frameComplete = false) :
    exec .decode s = .next (replied s (.code .none)) := by
  simp only [exec, execDecode, admitted_consumer hs, consumeFrame, hf]
  rfl

/-- Settles O21: the branch of DECODE without a pending frame. -/
theorem decodeOfNoPendingFrame : Obligations.DecodeOfNoPendingFrame :=
  fun _ hs hf => exec_decode_none hs hf

/-! ## What another code than VALID leaves -/

/-- R124. -/
theorem decodeCkm_retains (h : (decodeCkm m s).1 ≠ .valid) : (decodeCkm m s).2 = s := by
  obtain ⟨-, e⟩ | ⟨-, e⟩ := decodeCkm_cases m s
  · exact absurd (congrArg Prod.fst e) h
  · rw [e]

/-- R135. -/
theorem decodeJoy_retains (h : (decodeJoy s).1 ≠ .valid) : (decodeJoy s).2 = s := by
  obtain ⟨-, e⟩ | ⟨-, -, e⟩ | ⟨-, -, e⟩ := decodeJoy_cases s
  · rw [e]
  · exact absurd (congrArg Prod.fst e) h
  · rw [e]

/-- On CKM a buffer is readable when it has the bytes of the model that `model` names. -/
theorem readable_ckm_iff (hp : s.cfg.proto = .ckm) (hm : s.cfg.ckmModels[s.model]? = some m) :
    readable s ↔ ckmExtent m ≤ s.cfg.frameCap := by
  simp [readable, hp, hm]

/-- Where the buffer has the bytes read, a depacketizer that does not answer VALID writes nothing at all, the draw
counter included (R124, R135, log 16). -/
theorem unpack_retains (hu : unpack s = .ok u) (hr : readable s) (hv : u.1 ≠ .valid) : u.2 = s := by
  obtain ⟨-, rfl⟩ | ⟨hp, m, hm, rfl⟩ | ⟨hp, rfl⟩ := unpack_ok hu
  · exact absurd rfl hv
  · rw [reading_of_le ((readable_ckm_iff hp hm).1 hr)]
    exact decodeCkm_retains hv
  · have hcap : joyExtent ≤ s.cfg.frameCap := by simpa [readable, hp] using hr
    rw [reading_of_le hcap]
    exact decodeJoy_retains hv

/-- Settles O22: the depacketizer of PROTO answers a code, the common end of DECODE clears `frame_complete` and sets
`new_packet` by that code, and what a depacketizer leaves alone is said by `unpack_change` and `unpack_retains`. -/
theorem decodeConsumesThePendingFrame : Obligations.DecodeConsumesThePendingFrame := by
  intro s hs hf hmodel
  obtain ⟨u, hu⟩ := unpack_completes hmodel
  obtain ⟨hcode, hrest, hretains⟩ := unpack_change hu
  have hnext := exec_decode_pending hs hf hu
  refine ⟨_, u.1, hnext, hcode, ?results, rfl, ?newPacket, fun hv => ?published, fun hv hr => ?draws,
    exec_decode_keeps hs hnext⟩
  case results => rw [finish_consumed, hrest, ← hs.1]; rfl
  case newPacket => rw [finish_consumed, hrest]; rfl
  case published => rw [finish_consumed, hretains hv]; exact ⟨rfl, rfl, rfl, rfl, rfl, rfl⟩
  case draws => rw [finish_consumed, unpack_retains hu hr hv]; rfl

/-! ## DECODE issued again -/

/-- R75, R156: a DECODE that was answered came from a consumer that is not blocked. -/
theorem consumerReady_of_exec_decode (h : exec .decode s = .next t) : consumerReady s := by
  obtain ⟨hissuer, hwait, -⟩ := exec_next h
  have hconsumer : s.issuer = .consumer := eq_of_beq hissuer
  exact ⟨hconsumer, hwait hconsumer⟩

/-- Settles O23: a DECODE leaves no frame pending and its issuer as it was, so the next one finds none. -/
theorem secondDecodeReturnsNone : Obligations.SecondDecodeReturnsNone := by
  intro s t h
  have hs := consumerReady_of_exec_decode h
  obtain ⟨-, ⟨-, hissuer, -⟩, -, -, hwait⟩ := exec_decode_keeps hs h
  obtain ⟨-, -, -, hcleared, -⟩ := onlyTheOwnersWrite .decode s t nofun h
  exact exec_decode_none ⟨hissuer.trans hs.1, hwait⟩ (hcleared rfl)

end Sys2Proof.Machine
end

section
/-! The consumer's accessors (46_accessors.md R171 to R177): each as a whole next state, and the values they read and
write in terms of the published state. -/

namespace Sys2Proof.Machine

variable {s : State}

/-! ## The next states -/

section
variable (hs : consumerReady s)
include hs

theorem exec_getCh (i : Byte) : exec (.getCh i) s = .next (replied s (.channel (channelAt s i.toNat))) :=
  admitted_consumer hs _

theorem exec_getStick (a : Axis) : exec (.getStick a) s = .next (replied s (.stick (stickAt s.stick a))) :=
  admitted_consumer hs _

theorem exec_getSw (i : Fin 16) : exec (.getSw i) s = .next (replied s (.switch (getSwitch s.switchBank i))) :=
  admitted_consumer hs _

theorem exec_setSw (i : Fin 16) (v : Byte) :
    exec (.setSw i v) s = .next { s with switchBank := setSwitch s.switchBank i (v.setWidth 2) } :=
  admitted_consumer hs _

theorem exec_isNew : exec .isNew s = .next (replied s (.isNew s.newPacket)) :=
  admitted_consumer hs _

theorem exec_clrNew : exec .clrNew s = .next { s with newPacket := false } :=
  admitted_consumer hs _

theorem exec_getLink : exec .getLink s = .next (replied s (.link (linkBits s.signalLost s.failsafe))) :=
  admitted_consumer hs _

end

/-! ## Channels and sticks -/

theorem channelAt_of_lt {i : Nat} (h : i < 18) (hcount : i < s.chCount) : channelAt s i = s.ch[i] := by
  rw [channelAt, if_pos hcount, Vector.getElem?_eq_getElem h, Option.getD_some]

/-- R171: at or beyond `ch_count`. -/
theorem channelAt_of_le {i : Nat} (h : s.chCount ≤ i) : channelAt s i = s.cfg.channelLow := if_neg (Nat.not_lt.2 h)

/-- R21: no JOY frame counts a channel. -/
theorem BlockInv.chCount_eq_zero (h : BlockInv s) (hp : s.cfg.proto = .joy) : s.chCount = 0 := by
  simpa [ChannelInv, hp] using h.channels

/-- Settles O33: the two branches of `channelAt`; on JOY every index is at or beyond the count. -/
theorem getChReadsBelowTheCount : Obligations.GetChReadsBelowTheCount := by
  intro i s hs
  rw [exec_getCh hs i]
  refine ⟨fun h hcount => ?_, fun hle => ?_, fun hinv hp => ?_⟩
  · rw [channelAt_of_lt h hcount]
  · rw [channelAt_of_le hle]
  · rw [channelAt_of_le ((hinv.chCount_eq_zero hp).trans_le (Nat.zero_le _))]

/-- Settles O34: `stickAt` names the element of each axis (R22). -/
theorem getStickReadsTheAxis : Obligations.GetStickReadsTheAxis :=
  fun _ hs => ⟨exec_getStick hs .roll, exec_getStick hs .pitch, exec_getStick hs .throttle, exec_getStick hs .yaw⟩

/-! ## Switches -/

/-- R70: switch `i` is the base-4 digit `i` of the bank. -/
theorem getSwitch_toNat (bank : Word) (i : Fin 16) : (getSwitch bank i).toNat = bank.toNat / 4 ^ i.val % 4 := by
  have hdigit : (bank.toNat >>> (2 * i.val)) &&& 3 = bank.toNat / 4 ^ i.val % 4 := by
    rw [Nat.shiftRight_eq_div_pow, pow_mul]
    exact Nat.and_two_pow_sub_one_eq_mod (bank.toNat / 4 ^ i.val) 2
  rw [getSwitch, BitVec.toNat_setWidth, BitVec.toNat_and, BitVec.toNat_ushiftRight,
    show BitVec.toNat (3 : Word) = 3 from rfl, hdigit]
  exact Nat.mod_mod _ 4

/-- Settles O35: the switch that GET_SW hands out, as a digit. -/
theorem getSwReadsTwoBits : Obligations.GetSwReadsTwoBits :=
  fun i s hs => ⟨_, exec_getSw hs i, getSwitch_toNat s.switchBank i⟩

/-- Settles O36: the digits of the new bank are its switches, and of these SET_SW replaces one. -/
theorem setSwWritesTwoBits : Obligations.SetSwWritesTwoBits := by
  intro i v s hs
  refine ⟨_, exec_setSw hs i v, fun k => ?_⟩
  rw [← getSwitch_toNat, ← getSwitch_toNat, getSwitch_setSwitch]
  by_cases h : k = i
  · rw [if_pos h, if_pos h, BitVec.toNat_setWidth]
  · rw [if_neg h, if_neg h]

/-! ## Flags -/

/-- Settles O37: IS_NEW reads the flag and writes nothing. -/
theorem isNewReadsTheFlag : Obligations.IsNewReadsTheFlag :=
  fun _ hs => exec_isNew hs

/-- Settles O38: CLR_NEW is the one update `setNew`. -/
theorem clrNewClearsTheFlag : Obligations.ClrNewClearsTheFlag :=
  fun _ hs => exec_clrNew hs

/-- R177: the places of the two bits. -/
theorem linkBits_bits (lost fail : Bool) :
    (linkBits lost fail).getLsbD 0 = lost ∧ (linkBits lost fail).getLsbD 1 = fail := by
  cases lost <;> cases fail <;> decide

/-- Settles O39: the two bits in their places; off CH11 the invariant has both 0 (R18). -/
theorem getLinkReadsBothBits : Obligations.GetLinkReadsBothBits := by
  intro s hs
  refine ⟨⟨_, exec_getLink hs, linkBits_bits s.signalLost s.failsafe⟩, fun hinv hp => ?_⟩
  obtain ⟨hfail, hlost⟩ := hinv.link hp
  rw [exec_getLink hs, hfail, hlost]
  rfl

end Sys2Proof.Machine
end

section
/-! Completion (R193): every operation that may run answers a next state, and no step faults. The one fault of the model
is DECODE's, on a `model` that is no index of the table, which the invariant excludes. -/

namespace Sys2Proof.Machine

variable {i : Instr} {s : State} {f : Fault}

/-! ## Operations that may run complete -/

/-- R193: DECODE completes with no frame pending and with one. -/
theorem exec_decode_completes (hs : consumerReady s) (hinv : BlockInv s) : ∃ t, exec .decode s = .next t := by
  cases hf : s.frameComplete with
  | false => exact ⟨_, exec_decode_none hs hf⟩
  | true =>
    obtain ⟨u, hu⟩ := unpack_completes hinv.modelIndex
    exact ⟨_, exec_decode_pending hs hf hu⟩

theorem exec_completes_of_consumer (hs : consumerReady s) (hinv : BlockInv s) (hi : mayIssue i .consumer = true) :
    ∃ t, exec i s = .next t := by
  cases i
  case waitSlot x => exact ⟨_, exec_waitSlot hs x⟩
  case waitQ x => exact ⟨_, exec_waitQ hs x⟩
  case decode => exact exec_decode_completes hs hinv
  case getCh k => exact ⟨_, exec_getCh hs k⟩
  case getStick a => exact ⟨_, exec_getStick hs a⟩
  case getSw k => exact ⟨_, exec_getSw hs k⟩
  case setSw k v => exact ⟨_, exec_setSw hs k v⟩
  case isNew => exact ⟨_, exec_isNew hs⟩
  case clrNew => exact ⟨_, exec_clrNew hs⟩
  case getLink => exact ⟨_, exec_getLink hs⟩
  case bits2fix x => exact ⟨_, exec_bits2fix (.inr hs) x⟩
  -- The rest the consumer may not issue.
  all_goals cases hi

theorem exec_completes_of_environment (hs : environmentReady s) (hi : mayIssue i .environment = true) :
    ∃ t, exec i s = .next t := by
  cases i
  case reset => exact ⟨_, exec_reset hs⟩
  -- The rest the environment may not issue.
  all_goals cases hi

/-- Settles O47: by the context that issues the operation. -/
theorem everyOperationCompletes : Obligations.EveryOperationCompletes := by
  rintro i s hinv ⟨hi, hjoy, hwait⟩
  cases hc : s.issuer <;> rw [hc] at hi hwait
  case producer => exact exec_completes_of_producer hc hi hjoy
  case consumer => exact exec_completes_of_consumer ⟨hc, hwait nofun⟩ hinv hi
  case environment => exact exec_completes_of_environment ⟨hc, hwait nofun⟩ hi

/-! ## No step faults -/

/-- DECODE faults only where no depacketizer can be chosen. -/
theorem consumeFrame_fault (h : consumeFrame s = .fault f) : unpack s = .error f := by
  unfold consumeFrame at h
  split at h
  · split at h
    · cases h
    · cases h; assumption
  · cases h

/-- No operation but DECODE has a fault. -/
theorem exec_fault (h : exec i s = .fault f) : i = .decode ∧ consumeFrame s = .fault f := by
  cases i
  case decode => exact ⟨rfl, admitted_fault h⟩
  case loadf d =>
    have hk := admitted_fault h
    split at hk <;> cases hk
  case reset =>
    have hk := admitted_fault h
    split at hk <;> cases hk
  -- The others answer a next state once admitted.
  all_goals cases admitted_fault h

theorem exec_ne_fault (hinv : BlockInv s) (i : Instr) (f : Fault) : exec i s ≠ .fault f := by
  intro h
  obtain ⟨-, hdecode⟩ := exec_fault h
  obtain ⟨u, hu⟩ := unpack_completes hinv.modelIndex
  rw [consumeFrame_fault hdecode] at hu
  cases hu

theorem declareExpired_ne_fault (s : State) (f : Fault) : declareExpired s ≠ .fault f := by
  cases hw : s.wait with
  | none => simp [declareExpired, hw]
  | some w => simp [declareExpired_blocked hw]

theorem resumeWait_ne_fault (s : State) (f : Fault) : resumeWait s ≠ .fault f := by
  unfold resumeWait
  split
  · split <;> nofun
  · nofun

/-- Settles O48: a step waits, runs an operation from a state that has the invariant too, refuses bytes that are no
command, or takes one of the two events of a blocked wait. -/
theorem stepNeverFaults : Obligations.StepNeverFaults := by
  intro s hinv f
  obtain ⟨-, hs⟩ | ⟨c, bytes, rest, -, hc⟩ | ⟨rest, -, hs⟩ | ⟨rest, -, hs⟩ := step_cases s
  · rw [hs]; nofun
  · obtain ⟨i, left, -, hs⟩ | ⟨e, -, hs⟩ := hc <;> rw [hs]
    · exact exec_ne_fault (hinv.taken c _) i f
    · nofun
  · rw [hs]; exact declareExpired_ne_fault _ f
  · rw [hs]; exact resumeWait_ne_fault _ f

end Sys2Proof.Machine
end

section
/-! A DECODE that comes late (R219, R225): what the first bytes of a later frame leave of a pending one, and what DECODE
makes of the buffer then, protocol by protocol. -/

namespace Sys2Proof.Machine

variable {s t u v : State} {b : Byte} {d : List Byte} {sel : Selected} {c e : Code}

/-! ## The mixture in the buffer -/

/-- The invariant is kept byte by byte. -/
theorem feed_inv (hinv : BlockInv s) (h : feed d s = .next t) : BlockInv t := by
  induction d generalizing s with
  | nil => cases h; exact hinv
  | cons b d ih =>
    cases hb : exec (.push b) s with
    | next u =>
      rw [feed_cons hb] at h
      obtain ⟨-, -, he⟩ := exec_next hb
      exact ih (he.inv hinv) h
    | fault f => simp [feed, hb] at h
    | refused r => simp [feed, hb] at h

/-- R92, R94, R95: an accepted byte in EMPTY or FULL, and further bytes of its frame short of the last. -/
theorem feed_begins (hinv : BlockInv s) (hs : producerReady s) (hf : s.fsm ≠ .filling)
    (hsel : frameSelect s.cfg b = some sel) (hlen : d.length + 1 < sel.len) (hcap : d.length + 1 ≤ s.cfg.frameCap) :
    feed (b :: d) s = .next
      { s with
        fsm := .filling, widx := d.length + 1, frameLen := sel.len, model := sel.model.getD s.model
        mem := Memory.writeAll s.mem 0 (b :: d), results := s.results ++ zeros (b :: d) } := by
  rw [Nat.add_comm] at hlen hcap ⊢
  rw [feed_cons (exec_push_begins hinv hs hf hsel (by omega)), feed_stored (by exact hs) rfl hcap hlen,
    ← replied_zeros hs b d]
  rfl

/-! ## What DECODE makes of a pending frame -/

/-- DECODE in `s` answers `u` and hands the consumer the code `c`. -/
def DecodesTo (s u : State) (c : Code) : Prop :=
  exec .decode s = .next u ∧ u.results = s.results ++ [⟨.consumer, .code c⟩]

theorem DecodesTo.unique (h : DecodesTo s u c) (h' : DecodesTo s v e) : u = v ∧ c = e := by
  obtain ⟨hu, hc⟩ := h
  obtain ⟨hv, he⟩ := h'
  obtain rfl : u = v := by simpa [hu] using hv
  exact ⟨rfl, by simpa [hc] using he⟩

/-- The code is the result in the next state that DECODE is known to answer. -/
theorem DecodesTo.code_eq (h : DecodesTo s u c) (hnext : exec .decode s = .next (replied v (.code e))) : c = e := by
  obtain ⟨hu, hres⟩ := h
  obtain rfl : u = replied v (.code e) := by simpa [hu] using hnext
  obtain ⟨-, -, rfl⟩ : v.results = s.results ∧ v.issuer = .consumer ∧ e = c := by simpa [replied] using hres
  rfl

section
variable (hinv : BlockInv s) (hs : consumerReady s) (hf : s.frameComplete = true)
include hinv hs hf

/-- R170, R193: a pending frame is consumed, and the framing elements stay. -/
theorem decodesTo_of_pending :
    ∃ u c, DecodesTo s u c ∧ c ≠ .none ∧ u.frameComplete = false ∧ sameFraming s u := by
  obtain ⟨u, c, hnext, hcode, hres, hcleared, -, -, -, hframing, -⟩ :=
    decodeConsumesThePendingFrame s hs hf hinv.modelIndex
  exact ⟨u, c, ⟨hnext, hres⟩, hcode, hcleared, hframing⟩

/-- R110, R111: off CKM a pending frame fits the buffer, so nothing is asked of its size. -/
theorem DecodesTo.ch11 (h : DecodesTo s u c) (hp : s.cfg.proto = .ch11) :
    c = .valid
      ∧ (∀ k : Fin 18, k.val < 16 → ∀ j : Nat, u.ch[k].getLsbD j =
        (decide (j < 11) && (s.buf (1 + (11 * k.val + j) / 8)).getLsbD ((11 * k.val + j) % 8)))
      ∧ u.signalLost = (s.buf 23).getLsbD 2 ∧ u.failsafe = (s.buf 23).getLsbD 3 := by
  have hcap : 25 ≤ s.cfg.frameCap := hinv.fitted (by simp [hp]) hf
  obtain ⟨v, hnext, hres, hbits, -, -, -, hlost, hfail, -⟩ := ch11FrameIsPublished s hs hp hf (by omega)
  obtain ⟨rfl, rfl⟩ := h.unique ⟨hnext, hres⟩
  exact ⟨rfl, hbits, hlost, hfail⟩

/-- R121, R122: for a model whose frame fits the buffer. -/
theorem DecodesTo.ckm (h : DecodesTo s u c) (hp : s.cfg.proto = .ckm) (m : CkmModel)
    (hmod : s.cfg.ckmModels[s.model]? = some m) (hcap : m.len ≤ s.cfg.frameCap) :
    (c = .valid ↔ ckmChecksumHolds s m)
      ∧ (c = .valid → ∀ k : Fin 18, k.val < m.nch → u.ch[k].toNat =
        (s.buf (m.off + 2 * k.val)).toNat + 256 * (s.buf (m.off + 2 * k.val + 1)).toNat) := by
  have hm : m.wf = true := models_wf_of_config_wf hinv.parameters m (List.mem_of_getElem? hmod)
  by_cases hsum : ckmChecksumHolds s m
  · obtain ⟨v, hnext, hres, hwords, -⟩ := ckmFrameIsPublished s m hs hp hf hmod hm hcap hsum
    obtain ⟨rfl, rfl⟩ := h.unique ⟨hnext, hres⟩
    exact ⟨iff_of_true rfl hsum, fun _ => hwords⟩
  · obtain rfl := h.code_eq (exec_decode_ckm_checksumFails hs hp hf hmod hm hcap hsum)
    exact ⟨iff_of_false nofun hsum, nofun⟩

/-- R131, R132. -/
theorem DecodesTo.joy (h : DecodesTo s u c) (hp : s.cfg.proto = .joy) :
    c = .valid ↔ joyChecksumHolds s ∧ joyIdentityHolds s := by
  have hcap : 25 ≤ s.cfg.frameCap := hinv.fitted (by simp [hp]) hf
  by_cases hsum : joyChecksumHolds s
  · by_cases hid : joyIdentityHolds s
    · obtain rfl := h.code_eq (exec_decode_joy_valid hs hp hf hcap hsum hid)
      exact iff_of_true rfl ⟨hsum, hid⟩
    · obtain rfl := h.code_eq (exec_decode_joy_otherIdentity hs hp hf hcap hsum hid)
      exact iff_of_false nofun fun hboth => hid hboth.2
  · obtain rfl := h.code_eq (exec_decode_joy_checksumFails hs hp hf hcap hsum)
    exact iff_of_false nofun fun hboth => hsum hboth.1

end

/-- Settles O13: the bytes fed are the first of a later frame, and they keep `frame_complete` and the invariant; so
DECODE consumes a pending frame, whose bytes are the mixture, and its code and what it publishes are those above. -/
theorem lateDecodeSeesTheMixture : Obligations.LateDecodeSeesTheMixture := by
  intro b d s sel hinv hs hf hpending hsel hlen hcap
  have hfed := feed_begins hinv hs hf hsel hlen hcap
  refine ⟨_, hfed, hpending, rfl, rfl, rfl, fun a => read_writeAll_zero hinv.canonical a (b :: d), fun hw => ?_⟩
  have hmixed := (feed_inv hinv hfed).taken .consumer s.stream
  obtain ⟨u, c, hdecodes, hcode, hcleared, hframing⟩ := decodesTo_of_pending hmixed ⟨rfl, hw⟩ hpending
  have hch11 := hdecodes.ch11 hmixed ⟨rfl, hw⟩ hpending
  have hckm := hdecodes.ckm hmixed ⟨rfl, hw⟩ hpending
  have hjoy := hdecodes.joy hmixed ⟨rfl, hw⟩ hpending
  exact ⟨u, c, hdecodes.1, hdecodes.2, hcode, hcleared, hframing, hch11, hckm, hjoy⟩

end Sys2Proof.Machine
end

section
/-! RESET and what follows it (70_reset_and_hazards.md R215 to R217): the reset values, the first operation after RESET,
and a step with nothing presented. -/

namespace Sys2Proof.Machine

variable {s t : State}

/-- Settles O40: the next state of RESET holds the table of R30. -/
theorem resetOperationRestoresTheResetState : Obligations.ResetOperationRestoresTheResetState :=
  fun _ hs => ⟨_, exec_reset hs, resetState_resetValues hs.2⟩

/-- A RESET that was answered met no wait in flight (R217). -/
theorem resetValues_of_exec_reset (h : exec .reset s = .next t) : resetValues s t := by
  obtain ⟨-, -, hwait, rfl⟩ := exec_next h
  exact resetState_resetValues hwait

/-- Settles O41: each operation takes the branch that the values of R30 choose. -/
theorem firstOperationsAfterReset : Obligations.FirstOperationsAfterReset := by
  rintro s t u p h rfl rfl
  obtain ⟨hempty, -, hcomplete, hnew, hfail, hlost, hslot, hqueue, hcount, -, -, -, -, -, -, hwait, -⟩ :=
    resetValues_of_exec_reset h
  have hu : consumerReady { t with issuer := .consumer } := ⟨rfl, hwait⟩
  refine ⟨exec_decode_none hu hcomplete, ?waitSlot, ?waitQ, ?isNew, ?getLink, fun i => ?getCh,
    fun b hsel => exec_push_discarded rfl hempty hsel⟩
  case waitSlot => rw [exec_waitSlot hu, waitOn_timesOut (p := .slot) (by exact hslot)]
  case waitQ => rw [exec_waitQ hu, waitOn_timesOut (holdsPost_queue_of_zero (by exact hqueue))]
  case isNew => rw [exec_isNew hu, hnew]
  case getLink => rw [exec_getLink hu, hlost, hfail]; rfl
  case getCh => rw [exec_getCh hu, channelAt_of_le (by exact hcount.trans_le (Nat.zero_le _))]

/-- Settles O6: with no event to take, `takeEvent` waits (R215, log 12). -/
theorem stepWaitsWhenNothingIsPresented : Obligations.StepWaitsWhenNothingIsPresented := by
  intro s hs
  rw [step, takeEvent, hs]

end Sys2Proof.Machine
end
